-- ==== Sys2Proof/Word.lean ====
section
/-!
DEFINITION. The word types of the model and their plainest conversions: bytes, 32-bit words, 64-bit pairs,
the 96-bit instruction word and 32-byte engine and record words are all `BitVec`.
-/
namespace Sys2Proof

/-- One byte (R5: memory is addressed in bytes, least significant byte first). -/
abbrev Byte := BitVec 8
/-- A 32-bit register (R125). -/
abbrev Word := BitVec 32
/-- A register pair, an address or a control register (R116). -/
abbrev DWord := BitVec 64
/-- A whole instruction word (R112). -/
abbrev IWord := BitVec 96

/-- The pair whose low word is `lo` (R116). -/
def pairOf (lo hi : Word) : DWord := hi ++ lo
/-- The low word of a pair (R116). -/
def loWord (x : DWord) : Word := x.setWidth 32
/-- The high word of a pair (R116). -/
def hiWord (x : DWord) : Word := (x >>> 32).setWidth 32
/-- The 1-bit value of a truth value. -/
def bit1 (b : Bool) : Nat := if b then 1 else 0

end Sys2Proof
end

