-- ==== Sys2Proof/Types.lean ====
section
/-!
DEFINITION. The fields of the instruction word (R112) and the names of the 145 assigned opcodes (R129).
-/
namespace Sys2Proof

/-- The kind of a source operand (Table 6.2). -/
inductive Kind where
  | v | k | alt | imm
  deriving DecidableEq, Repr

/-- The operand latch hint HOLD (R120). -/
inductive Hold where
  | none | a | b | c
  deriving DecidableEq, Repr

/-- The branch hint BH (Table 2.3; 11 acts as 10 by R376 and keeps its own name, so that a word is not altered). -/
inductive Hint where
  | pred | unif | wait | rsvd
  deriving DecidableEq, Repr

/-- A source field A or B: its kind and its index (R115). -/
structure Src where
  kind : Kind
  idx : BitVec 8
  deriving DecidableEq, Repr

/-- Every field of an instruction word but OPC (Table 6.1). -/
structure Fields where
  fn : BitVec 8
  gn : Bool
  gp : BitVec 3
  la : BitVec 4
  hold : Hold
  bh : Hint
  d : BitVec 8
  a : Src
  b : Src
  x : BitVec 8
  imm : Word
  deriving DecidableEq, Repr

/-- The assigned opcodes, in the order of Tables 6.14 to 6.19 (R129). -/
inductive Op where
  | nop
  | iadd
  | isub
  | imul
  | imulhi
  | imad
  | imin
  | imax
  | iabs
  | lea
  | icmp
  | sel
  | and
  | or
  | xor
  | andn
  | shl
  | shr
  | sha
  | shf
  | bfx
  | bfi
  | popc
  | clz
  | brev
  | perm
  | plop
  | mov
  | movsr
  | ldkx
  | isad
  | imulw
  | fadd
  | fsub
  | fmul
  | ffma
  | fmin
  | fmax
  | fabs
  | fneg
  | fcmp
  | fset
  | fclass
  | frnd
  | fdiv
  | fsqrt
  | frcp
  | frsq
  | fexp2
  | flog2
  | fsinpi
  | fcospi
  | fscl
  | fcpys
  | fgete
  | fgetm
  | fsat
  | hadd2
  | hsub2
  | hmul2
  | hfma2
  | hmin2
  | hmax2
  | hcmp2
  | hdot2
  | cvtf
  | cvtfi
  | cvtif
  | cvtf8
  | cvt8f
  | pk8
  | unpk8
  | pk16
  | unpk16
  | cvtsf8
  | habs2
  | hclass2
  | ipk16
  | idot4
  | iadd2
  | imin2
  | imax2
  | bra
  | jmpi
  | call
  | calli
  | ret
  | exit
  | yield
  | sleep
  | skjoin
  | skleave
  | bar
  | vote
  | ballot
  | shfl
  | skred
  | skmatch
  | flags
  | binit
  | bexpect
  | barrive
  | bwait
  | btest
  | seamset
  | seamsign
  | seamwait
  | seamtest
  | stwait
  | gld
  | gst
  | sld
  | sst
  | lld
  | lst
  | pref
  | gamo
  | gred
  | samo
  | sred
  | gcas
  | scas
  | fence
  | mark
  | cctl
  | mma
  | accz
  | accld
  | accst
  | rsalloc
  | rsfill
  | rssrc
  | rspin
  | rsunpin
  | rsrevoke
  | rsquery
  | accadd
  | accmov
  | push
  | trap
  | brk
  | tret
  | crrd
  | crwr
  | cntrd
  deriving DecidableEq, Repr

end Sys2Proof
end

