-- ==== Sys2Proof/Machine/Forms.lean ====
section
/-!
DEFINITION. The form of every opcode: which operand kinds, register counts, function bits and immediate bits it
takes (Tables 6.6, 7.1, 8.1, 8.3, 9.1, 10.1, 11.6 and R258), and from it the first limit of chapter 22 that a word
breaks (R370 to R383).
-/
namespace Sys2Proof

/-- Integer type field IT (Table 6.7). -/
def Fields.it (f : Fields) : BitVec 2 := f.fn.extractLsb' 2 2
/-- IT[1]: the 64-bit types (R145). -/
def Fields.wide (f : Fields) : Bool := f.fn.getLsbD 3
/-- IT[0]: signedness (R145). -/
def Fields.signed (f : Fields) : Bool := f.fn.getLsbD 2
/-- .sat (Table 6.6). -/
def Fields.sat (f : Fields) : Bool := f.fn.getLsbD 4
/-- Integer condition of ICMP, and MO of classes 011 and 100 (Table 6.6). -/
def Fields.top3 (f : Fields) : Nat := (f.fn.extractLsb' 5 3).toNat
/-- Destination file of MOV (Table 6.6). -/
def Fields.df (f : Fields) : Nat := (f.fn.extractLsb' 0 2).toNat
/-- Rounding mode RM, and AT of class 101 (Table 6.6). -/
def Fields.top2 (f : Fields) : Nat := (f.fn.extractLsb' 6 2).toNat
/-- Condition of FCMP and FSET (Table 6.6). -/
def Fields.fcc (f : Fields) : Nat := (f.fn.extractLsb' 3 3).toNat
/-- Destination type DT of class 010 (Table 6.6). -/
def Fields.dt (f : Fields) : Nat := (f.fn.extractLsb' 4 2).toNat
/-- Source type ST of class 010 (Table 6.6). -/
def Fields.st (f : Fields) : Nat := (f.fn.extractLsb' 2 2).toNat
/-- Skein number SK, and the queue number QN of PUSH (Table 6.6). -/
def Fields.low4 (f : Fields) : Nat := (f.fn.extractLsb' 0 4).toNat
/-- Scope SC of class 100 (Table 6.6). -/
def Fields.sc (f : Fields) : Nat := (f.fn.extractLsb' 3 2).toNat
/-- Access size SZ of class 100 (Table 6.9). -/
def Fields.sz (f : Fields) : Nat := (f.fn.extractLsb' 0 3).toNat
/-- Registers of one operand of integer width IT: 1, or 2 for the 64-bit types (R145). -/
def Fields.wregs (f : Fields) : Nat := if f.wide then 2 else 1
/-- Registers of one operand of access size SZ (Table 10.2). -/
def Fields.zregs (f : Fields) : Nat := match f.sz with | 3 => 2 | 4 => 4 | _ => 1

/-- The ten bits of a source field, kind first (R115). -/
def Kind.code : Kind → Nat | .v => 0 | .k => 1 | .alt => 2 | .imm => 3
/-- The ten bits of a source field as a number (Table 6.1). -/
def Src.val (s : Src) : Nat := s.kind.code * 256 + s.idx.toNat

namespace Machine

/-- The limits of the launch whose thread runs the word (R374): its register count and its tile count. -/
structure Limits where
  regs : Nat
  acc : Nat
  deriving DecidableEq, Repr

/-- What a source field may hold: `used = false` means that all ten bits must be zero. `alt` is the number of
legal kind-10 indices where kind 10 is not reserved (R119), and `altRsv`, `immRsv` say that an unused field still
has kind 10 or kind 11 reserved as a kind (R374). -/
structure SForm where
  used : Bool := true
  n : Nat := 1
  v : Bool := false
  k : Bool := false
  i : Bool := false
  alt : Option Nat := none
  altRsv : Bool := true
  immRsv : Bool := false
  deriving DecidableEq, Repr

/-- What the D field is (R115). -/
inductive DForm where
  | zero | ignore | reg (n : Nat) | pred | tile
  deriving DecidableEq, Repr

/-- What the X field is: a register operand of `n` registers, or bits of which `zero` must be zero. -/
inductive XForm where
  | reg (n : Nat) | bits (zero : BitVec 8)
  deriving DecidableEq, Repr

/-- The form of one opcode for one word. `imm = some m` gives IMM a use of its own, with the bits of `m` zero;
`imm = none` lets IMM be nonzero only under a kind-11 source (R375). -/
structure Form where
  fnBad : Bool := false
  fnZero : BitVec 8 := 0xFF
  d : DForm := .zero
  a : SForm := { used := false }
  b : SForm := { used := false }
  x : XForm := .bits 0xFF
  xBad : Bool := false
  imm : Option Word := none
  immOut : Bool := false
  immIdx : Bool := false
  deriving DecidableEq, Repr

/-- A source of kind 00, 01 or 11 (R115). -/
def srcAny (n : Nat) : SForm := { n := n, v := true, k := true, i := true }
/-- A source of kind 00 or 01. -/
def srcVK (n : Nat) : SForm := { n := n, v := true, k := true }
/-- A base register: kind 00 alone (R212). -/
def srcV (n : Nat) : SForm := { n := n, v := true }
/-- A source of kind 10 alone, with `lim` legal indices (Table 6.3). -/
def srcAlt (lim : Nat) : SForm := { alt := some lim }
/-- An unused field of an opcode that Table 6.3 lists: kind 10 is not reserved there as a kind. -/
def srcZeroAlt : SForm := { used := false, altRsv := false }
/-- An unused field of an opcode in which kind 11 is reserved (R118). -/
def srcZeroNoImm : SForm := { used := false, immRsv := true }

/-- PM1 = 7 in a binary8 format code (R80). -/
def fmtBad (x : BitVec 8) : Bool := x.extractLsb' 2 3 == 7

/-- Class 000 (Table 7.1, Table 22.5). -/
def form000 (op : Op) (f : Fields) : Form :=
  let w := f.wregs
  let two : Form := { fnZero := 0xF3, d := .reg w, a := srcAny w, b := srcAny w }
  let uOnly := f.signed
  match op with
  | .iadd | .isub => { two with fnZero := 0xE3 }
  | .imad => { two with fnZero := 0xE3, x := .reg w }
  | .iabs => { fnZero := 0xF3, fnBad := !f.signed, d := .reg w, a := srcAny w }
  | .lea => { two with d := .reg 2, a := srcAny 2, x := .bits 0xF0 }
  | .icmp => { two with fnZero := 0x13, fnBad := f.top3 ≥ 6, d := .pred }
  | .sel => { two with fnBad := uOnly, x := .bits 0xF0 }
  | .and | .or | .xor | .andn => { two with fnBad := uOnly }
  | .shl | .shr | .sha => { two with fnBad := uOnly, b := srcAny 1 }
  | .shf | .perm => { d := .reg 1, a := srcAny 1, b := srcAny 1, x := .reg 1 }
  | .bfx => { two with b := srcAny 1 }
  | .bfi => { two with fnBad := uOnly, b := srcAny 1, x := .reg w }
  | .popc | .clz => { fnZero := 0xF3, fnBad := uOnly, d := .reg 1, a := srcAny w }
  | .brev => { fnZero := 0xF3, fnBad := uOnly, d := .reg w, a := srcAny w }
  | .plop => { d := .pred, a := srcAlt 8, b := srcAlt 8, x := .bits 0xF8, imm := some 0xFFFFFF00 }
  | .mov =>
    { fnZero := 0xF0
      fnBad := match f.df with
        | 0 => f.signed || (f.a.kind == .alt && f.it != 0)
        | 3 => true
        | _ => f.it != 0
      d := if f.df = 0 then .reg w else .pred
      a := { srcAny (if f.df = 0 then w else 1) with alt := some 16 }
      b := srcZeroAlt }
  | .movsr =>
    { d := .reg (if f.a.idx = 0x03 ∨ f.a.idx = 0x0C ∨ f.a.idx = 0x0E then 2 else 1)
      a := srcAlt 15, b := srcZeroAlt }
  | .ldkx => { fnZero := 0xF3, fnBad := uOnly, d := .reg w, a := srcAny 1, x := .bits 0 }
  | .isad => { two with fnBad := f.wide, d := .reg 1, a := srcAny 1, b := srcAny 1, x := .reg 1 }
  | .imulw => { two with fnBad := f.wide, d := .reg 2, a := srcAny 1, b := srcAny 1 }
  | _ => two

/-- Class 001 (Table 8.1, Table 22.6). -/
def form001 (op : Op) (f : Fields) : Form :=
  let noRm := f.top2 ≠ 0
  let one : Form := { d := .reg 1, a := srcAny 1 }
  let two : Form := { one with b := srcAny 1 }
  match op with
  | .fadd | .fsub | .fmul | .fdiv => { two with fnZero := 0x39 }
  | .ffma => { two with fnZero := 0x38, x := .reg 1 }
  | .fmin | .fmax => { two with fnZero := 0x39, fnBad := noRm }
  | .fabs | .fneg => { one with fnZero := 0x3F, fnBad := noRm }
  | .fcmp => { two with fnZero := 0x01, fnBad := noRm, d := .pred }
  | .fset => { two with fnZero := 0x01, fnBad := noRm }
  | .fclass | .fgete | .fgetm | .fsat => { one with fnZero := 0x3B, fnBad := noRm }
  | .fscl => { two with fnZero := 0x3B }
  | .fcpys => { two with fnZero := 0x3F, fnBad := noRm }
  | _ => { one with fnZero := 0x3B }

/-- Class 010 (Table 8.3, Table 22.6). -/
def form010 (op : Op) (f : Fields) : Form :=
  let noRm := f.top2 ≠ 0
  let h := f.dt ≠ 1 ∧ f.dt ≠ 2 ∨ f.st ≠ f.dt
  let s0 := f.dt ≠ 0 ∨ f.st ≥ 2
  let one : Form := { fnZero := 0x03, d := .reg 1, a := srcAny 1 }
  let two : Form := { one with b := srcAny 1 }
  let f8 := fmtBad f.x
  match op with
  | .hadd2 | .hsub2 | .hmul2 => { two with fnBad := h }
  | .hfma2 | .hdot2 => { two with fnBad := h, x := .reg 1 }
  | .hmin2 | .hmax2 => { two with fnBad := h || noRm }
  | .hcmp2 => { two with fnBad := h || noRm, x := .bits 0xF8 }
  | .cvtf => { one with fnBad := f.dt = 3 ∨ f.st = 3 ∨ f.dt = f.st }
  | .cvtfi => { one with fnBad := f.st = 3, d := .reg (if f.dt ≥ 2 then 2 else 1) }
  | .cvtif => { one with fnBad := f.dt = 3, a := srcAny (if f.st ≥ 2 then 2 else 1) }
  | .cvtf8 => { one with fnBad := f.dt ≠ 3 ∨ f.st = 3, x := .bits 0xE0, xBad := f8 }
  | .cvt8f => { one with fnBad := f.st ≠ 3 ∨ f.dt = 3, x := .bits 0x80, xBad := f8 }
  | .pk8 => { two with fnBad := f.dt ≠ 3 ∨ f.st = 3, x := .bits 0xC0, xBad := f8 }
  | .unpk8 => { one with fnBad := f.st ≠ 3 ∨ f.dt ≠ 0 ∨ noRm, d := .reg 2, x := .bits 0xC0, xBad := f8 }
  | .pk16 => { two with fnBad := f.st ≠ 0 ∨ f.dt ≠ 1 ∧ f.dt ≠ 2 }
  | .unpk16 => { one with fnBad := f.dt ≠ 0 ∨ f.st ≠ 1 ∧ f.st ≠ 2 ∨ noRm, d := .reg 2 }
  | .cvtsf8 => { two with fnBad := f.dt ≠ 3 ∨ f.st ≠ 0 ∨ noRm, x := .bits 0xE0, xBad := f8 }
  | .habs2 | .hclass2 => { one with fnBad := h || noRm }
  | .idot4 => { two with fnBad := s0 || noRm, x := .reg 1 }
  | _ => { two with fnBad := s0 || noRm }

/-- Class 011 and the system instructions of class 110 (Table 9.1, Table 22.7). -/
def form011 (op : Op) (f : Fields) : Form :=
  let mo := f.top3
  let moBad := mo ≠ 0
  let plain : Form := { fnBad := moBad, fnZero := 0x1F }
  let sk : Form := { fnBad := moBad, fnZero := 0x10 }
  let fixed : Form := { plain with a := srcZeroNoImm, b := srcZeroNoImm, imm := some 0 }
  let bb : Form := { fixed with a := srcVK 1 }
  let seam : Form := { plain with a := srcAlt 16, b := srcZeroAlt }
  match op with
  | .bra | .call => { fixed with immOut := f.imm.extractLsb' 0 2 ≠ 0 }
  | .jmpi | .calli => { plain with a := srcAny 2 }
  | .sleep | .stwait => fixed
  | .skjoin | .skleave => { sk with fnBad := moBad || f.low4 = 0 }
  | .bar => sk
  | .vote => { sk with d := .pred, a := srcAny 1, x := .bits 0xFC, xBad := f.x.extractLsb' 0 2 = 3 }
  | .ballot | .skmatch => { sk with d := .reg 2, a := srcAny 1 }
  | .shfl => { sk with d := .reg 1, a := srcAny 1, b := srcAny 1, x := .bits 0xFC }
  | .skred =>
    { sk with d := .reg 1, a := srcAny 1, x := .bits 0xF0
              xBad := f.x.extractLsb' 0 4 = 8 ∨ f.x.extractLsb' 0 4 ≥ 12 }
  | .flags => { sk with d := .reg 1, a := srcAny 1, x := .bits 0xFC, xBad := f.x.extractLsb' 0 2 = 3 }
  | .binit | .bexpect => { bb with b := srcVK 1 }
  | .barrive => { bb with fnBad := mo ≠ 0 ∧ mo ≠ 3 }
  | .bwait => { bb with fnBad := mo ≠ 0 ∧ mo ≠ 2, x := .bits 0xFE }
  | .btest => { bb with d := .pred, x := .bits 0xFE }
  | .seamset => { seam with b := { srcAny 1 with altRsv := true } }
  | .seamsign => seam
  | .seamwait => { seam with x := .bits 0xFE }
  | .seamtest => { seam with d := .pred, x := .bits 0xFE }
  | .trap | .brk => { fixed with fnBad := false, fnZero := 0xFF }
  | .tret => {}
  | .crrd =>
    { a := srcZeroNoImm, b := srcZeroNoImm, d := .reg 2, imm := some 0xFFFFF000 }
  | .crwr => { a := srcVK 2, b := srcZeroNoImm, imm := some 0xFFFFF000 }
  | .cntrd =>
    { a := srcZeroNoImm, b := srcZeroNoImm, d := .reg 2, imm := some 0xFFFFFF00
      immIdx := f.imm.extractLsb' 0 8 ≥ 8 }
  | _ => plain

/-- The control register numbers of Table 9.5. -/
def crNumbers : List Nat :=
  [0x000, 0x001, 0x002, 0x008, 0x009, 0x010, 0x011, 0x012, 0x013, 0x020, 0x021, 0x022, 0x023, 0x030,
   0x040, 0x041, 0x050, 0x051, 0x052, 0x053, 0x054, 0x055]

/-- The register number of CRRD and CRWR (R127). -/
def Fields.crNum (f : Fields) : Nat := (f.imm.extractLsb' 0 12).toNat

/-- Sizes that Table 10.3 pairs with an atomic operation (R220). -/
def atomSzOk (op : Nat) (sz : Nat) : Bool :=
  if op ≤ 8 then sz == 2 || sz == 3 else if op ≤ 11 then sz == 2 else sz == 2 || sz == 3

/-- Class 100 (Table 10.1, Table 22.8). -/
def form100 (op : Op) (f : Fields) : Form :=
  let mo := f.top3
  let sc := f.sc
  let sz := f.sz
  let plainSc := mo = 0 ∧ sc ≠ 0
  let ldBad := mo > 2 ∨ plainSc ∨ sz > 6
  let stBad := (mo ≠ 0 ∧ mo ≠ 1 ∧ mo ≠ 3) ∨ plainSc ∨ sz > 4
  let aop := (f.x.extractLsb' 0 4).toNat
  let atBad := mo = 0 ∨ mo > 4 ∨ ¬ atomSzOk aop sz
  let casBad := mo = 0 ∨ mo > 4 ∨ sz < 2 ∨ sz > 4
  let base (g : Bool) : Form := { fnZero := 0, a := srcV (if g then 2 else 1), b := srcZeroNoImm, imm := some 0 }
  let atom (g d : Bool) : Form :=
    { base g with fnBad := atBad, d := if d then .reg f.zregs else .zero, b := srcVK f.zregs, x := .bits 0xF0
                  xBad := aop ≥ 12 }
  let cas (g : Bool) : Form :=
    { base g with fnBad := casBad, d := .reg f.zregs, b := srcVK f.zregs, x := .reg f.zregs }
  let bare : Form := { fnZero := 0, a := srcZeroNoImm, b := srcZeroNoImm }
  match op with
  | .gld => { base true with fnBad := ldBad, d := .reg f.zregs }
  | .sld | .lld => { base false with fnBad := ldBad, d := .reg f.zregs }
  | .gst => { base true with fnBad := stBad, b := srcVK f.zregs }
  | .sst | .lst => { base false with fnBad := stBad, b := srcVK f.zregs }
  | .pref => { base true with fnBad := f.fn ≠ 0 }
  | .gamo => atom true true
  | .gred => atom true false
  | .samo => atom false true
  | .sred => atom false false
  | .gcas => cas true
  | .scas => cas false
  | .fence => { bare with fnBad := mo ≠ 0 ∨ sz ≠ 0 }
  | .mark => { bare with fnBad := f.fn ≠ 0 }
  | _ => { base true with fnBad := mo ≠ 0 ∨ sz ≠ 0, b := srcVK 1, x := .bits 0xFC,
                          xBad := f.x.extractLsb' 0 2 = 3 }

/-- First row and row count of ACCZ, ACCLD and ACCST (R253). -/
def accF (f : Fields) : Nat := (f.imm.extractLsb' 0 7).toNat
/-- Row count of ACCZ, ACCLD and ACCST: IMM[14:8] + 1. -/
def accC (f : Fields) : Nat := (f.imm.extractLsb' 8 7).toNat + 1

/-- Class 101 (Table 11.6, Table 22.9). -/
def form101 (op : Op) (lim : Limits) (f : Fields) : Form :=
  let at3 := f.top2 = 3
  let xFmt : XForm := .bits (if f.top2 = 0 then 0xE0 else 0xFF)
  let xFmtBad := f.top2 = 0 ∧ fmtBad f.x
  let none5 : Form := { fnBad := at3, fnZero := 0xFF }
  let tileZero : SForm := { used := false, altRsv := false, immRsv := true }
  let rows : Form :=
    { fnBad := at3, fnZero := 0x3F, d := .tile, a := srcVK 1, b := tileZero, imm := some 0xFFFF8080
      immOut := accF f + accC f > 128 }
  match op with
  | .mma =>
    { fnBad := at3, fnZero := 0x1F, d := .tile, a := srcAlt 16, b := srcVK 2, x := xFmt, xBad := xFmtBad
      imm := some 0xFFFFFF80 }
  | .accz => { rows with fnZero := 0xFF, a := tileZero }
  | .accld | .accst =>
    { rows with
      x := .bits (if f.top2 = 0 then 0xC0 else 0xFF)
      xBad := f.top2 = 0 ∧ (f.x.getLsbD 5 ∧ f.x.extractLsb' 0 5 ≠ 0 ∨ fmtBad f.x) }
  | .rsalloc => { none5 with d := .reg 1, a := srcAny 1 }
  | .rsfill =>
    { fnBad := at3, fnZero := 0x3F, a := srcVK 1, b := srcVK 2, x := xFmt, xBad := xFmtBad, imm := some 0
      immOut := f.imm.extractLsb' 0 4 ≠ 0 }
  | .rssrc => { none5 with a := srcVK 2, b := srcVK 1, x := .reg 1 }
  | .rsquery => { none5 with d := .reg 1, b := srcVK 1 }
  | .accadd | .accmov => { none5 with d := .tile, a := srcAlt lim.acc, b := srcZeroAlt }
  | _ => { none5 with b := srcVK 1 }

/-- The form of an opcode for one word under the launch's limits. -/
def form (op : Op) (lim : Limits) (f : Fields) : Form :=
  match op with
  | .nop => { fnZero := 0, d := .ignore }
  | .iadd | .isub | .imul | .imulhi | .imad | .imin | .imax | .iabs | .lea | .icmp | .sel | .and | .or | .xor | .andn
  | .shl | .shr | .sha | .shf | .bfx | .bfi | .popc | .clz | .brev | .perm | .plop | .mov | .movsr | .ldkx | .isad
  | .imulw => form000 op f
  | .fadd | .fsub | .fmul | .ffma | .fmin | .fmax | .fabs | .fneg | .fcmp | .fset | .fclass | .frnd | .fdiv | .fsqrt
  | .frcp | .frsq | .fexp2 | .flog2 | .fsinpi | .fcospi | .fscl | .fcpys | .fgete | .fgetm | .fsat => form001 op f
  | .hadd2 | .hsub2 | .hmul2 | .hfma2 | .hmin2 | .hmax2 | .hcmp2 | .hdot2 | .cvtf | .cvtfi | .cvtif | .cvtf8 | .cvt8f
  | .pk8 | .unpk8 | .pk16 | .unpk16 | .cvtsf8 | .habs2 | .hclass2 | .ipk16 | .idot4 | .iadd2 | .imin2 | .imax2 =>
    form010 op f
  | .bra | .jmpi | .call | .calli | .ret | .exit | .yield | .sleep | .skjoin | .skleave | .bar | .vote | .ballot | .shfl
  | .skred | .skmatch | .flags | .binit | .bexpect | .barrive | .bwait | .btest | .seamset | .seamsign | .seamwait
  | .seamtest | .stwait | .trap | .brk | .tret | .cntrd => form011 op f
  | .crrd | .crwr => { form011 op f with immIdx := !(crNumbers.contains (Fields.crNum f)) }
  | .gld | .gst | .sld | .sst | .lld | .lst | .pref | .gamo | .gred | .samo | .sred | .gcas | .scas | .fence | .mark
  | .cctl => form100 op f
  | .mma | .accz | .accld | .accst | .rsalloc | .rsfill | .rssrc | .rspin | .rsunpin | .rsrevoke | .rsquery | .accadd
  | .accmov => form101 op lim f
  | .push =>
    { fnZero := 0xF0, fnBad := f.low4 ≥ 7, d := .pred, a := srcV 16 }

/-- SUB 2 for one source field: a reserved kind (R374). -/
def kindBad (sf : SForm) (s : Src) : Bool :=
  if sf.used then
    match s.kind with
    | .v => !sf.v
    | .k => !sf.k
    | .imm => !sf.i
    | .alt => sf.alt.isNone
  else (s.kind == .alt && sf.altRsv) || (s.kind == .imm && sf.immRsv)

/-- SUB 3 for one source field: an index out of its limits (R374). -/
def idxBad (sf : SForm) (lim : Limits) (s : Src) : Bool :=
  sf.used && match s.kind with
    | .v => decide (s.idx.toNat + sf.n > lim.regs)
    | .k => decide (s.idx.toNat + sf.n > 64)
    | .alt => match sf.alt with | some m => decide (s.idx.toNat ≥ m) | none => false
    | .imm => false

/-- SUB 4 for one source field: a misaligned pair or quad (R374). -/
def alignBad (sf : SForm) (s : Src) : Bool :=
  sf.used && (s.kind == .v || s.kind == .k) && s.idx.toNat % sf.n != 0

/-- SUB 5 for one source field (R374, R375). -/
def zeroBad (sf : SForm) (s : Src) : Bool :=
  if sf.used then s.kind == .imm && s.idx != 0 else s.val != 0

/-- The checks of SUB 1 to SUB 6 in the order of R372, each with its subcode, its FIELD and whether it fails. -/
def wordChecks (op : Op) (lim : Limits) (f : Fields) : List (Nat × Nat × Bool) :=
  let m := form op lim f
  let dReg (g : Nat → Bool) : Bool := match m.d with | .reg n => g n | _ => false
  let xReg (g : Nat → Bool) : Bool := match m.x with | .reg n => g n | _ => false
  let useImm := (m.a.used && f.a.kind == .imm) || (m.b.used && f.b.kind == .imm)
  [(1, 1, m.fnBad), (1, 5, m.xBad),
   (2, 3, kindBad m.a f.a), (2, 4, kindBad m.b f.b),
   (3, 2, dReg (fun n => decide (f.d.toNat + n > lim.regs)) || (m.d == .tile && decide (f.d.toNat ≥ lim.acc))),
   (3, 3, idxBad m.a lim f.a), (3, 4, idxBad m.b lim f.b),
   (3, 5, xReg (fun n => decide (f.x.toNat + n > lim.regs))), (3, 6, m.immIdx),
   (4, 2, dReg (fun n => f.d.toNat % n != 0)), (4, 3, alignBad m.a f.a), (4, 4, alignBad m.b f.b),
   (4, 5, xReg (fun n => f.x.toNat % n != 0)),
   (5, 1, f.fn &&& m.fnZero != 0),
   (5, 2, match m.d with | .zero => f.d != 0 | .pred => f.d.toNat ≥ 8 | _ => false),
   (5, 3, zeroBad m.a f.a), (5, 4, zeroBad m.b f.b),
   (5, 5, match m.x with | .bits z => f.x &&& z != 0 | .reg _ => false),
   (5, 6, match m.imm with | some z => f.imm &&& z != 0 | none => f.imm != 0 && !useImm),
   (6, 6, m.immOut)]

/-- The first limit of SUB 1 to SUB 6 that the word breaks: its subcode and its FIELD (R372). NOP is never rejected
(R165, R370). -/
def wordReject (op : Op) (lim : Limits) (f : Fields) : Option (Nat × Nat) :=
  if op = .nop then none
  else ((wordChecks op lim f).find? (fun c => c.2.2)).map (fun c => (c.1, c.2.1))

/-- The value of a field for TVAL (Table 22.1), OPC apart. -/
def fieldVal (opc : Nat) (f : Fields) : Nat → Nat
  | 0 => opc
  | 1 => f.fn.toNat
  | 2 => f.d.toNat
  | 3 => f.a.val
  | 4 => f.b.val
  | 5 => f.x.toNat
  | _ => f.imm.toNat

/-- The uses that are bound to trap mode: a kind-10 source that names h0 to h7, or MOV with DF = 01 (R131, R371).
Answers the FIELD and VAL of SUB 8. -/
def bankedUse (op : Op) (f : Fields) : Option (Nat × Nat) :=
  if op = .mov then
    if f.df = 1 then some (1, f.fn.toNat)
    else if f.a.kind = .alt ∧ f.a.idx.toNat < 8 then some (3, f.a.val)
    else if f.b.kind = .alt ∧ f.b.idx.toNat < 8 then some (4, f.b.val)
    else none
  else none

/-- The mode-bound uses of Table 22.10 that only trap mode may execute, with their FIELD and VAL (R371). -/
def trapModeUse (op : Op) (f : Fields) : Option (Nat × Nat) :=
  match op with
  | .tret => some (0, 0xC3)
  | .crrd | .crwr =>
    if 0x010 ≤ Fields.crNum f ∧ Fields.crNum f ≤ 0x013 then some (6, Fields.crNum f) else none
  | _ => bankedUse op f

/-- Privileged uses (R131). -/
def privileged (op : Op) (f : Fields) : Bool :=
  match op with
  | .tret | .crrd | .crwr => true
  | _ => (bankedUse op f).isSome

/-- The shared ports of a slice (Table 2.2). -/
inductive Port where
  | none | memory | matrix | engine | control | function
  deriving DecidableEq, Repr

/-- A branch with a guard other than p0 with GN = 0, and other than (!p0) (R114, R188). -/
def condGuard (f : Fields) : Bool := f.gp != 0

/-- The shared port an instruction uses (Table 2.2). -/
def portOf (op : Op) (f : Fields) : Port :=
  match op with
  | .gld | .gst | .sld | .sst | .lld | .lst | .pref | .gamo | .gred | .samo | .sred | .gcas | .scas | .fence | .mark
  | .cctl => .memory
  | .mma | .accz | .accld | .accst | .rsalloc | .rsfill | .rssrc | .rspin | .rsunpin | .rsrevoke | .rsquery | .accadd
  | .accmov => .matrix
  | .push | .trap | .brk | .tret | .crrd | .crwr | .cntrd => .engine
  | .bra => if condGuard f then .control else .none
  | .jmpi | .call | .calli | .ret | .skjoin | .skleave | .bar | .vote | .ballot | .shfl | .skred | .skmatch | .flags
  | .binit | .bexpect | .barrive | .bwait | .btest | .seamset | .seamsign | .seamwait | .seamtest => .control
  | .fdiv | .fsqrt | .frcp | .frsq | .fexp2 | .flog2 | .fsinpi | .fcospi => .function
  | _ => .none

/-- Instructions that wait for the resolution of a speculative path (R34, R187, R144, R213). EXIT stands here: on a
speculative path it takes effect only at resolution (R187). -/
def waitsResolution (op : Op) (f : Fields) : Bool :=
  match op with
  | .gld | .sld | .lld => f.top3 = 2
  | .pref => false
  | .bra => condGuard f
  | .exit => true
  | .stwait | .yield | .sleep => false
  | .mov => (bankedUse op f).isSome
  | _ => match portOf op f with
    | .memory | .matrix | .engine | .control => true
    | _ => false

/-- The long-latency class (R31). -/
def longLatency (op : Op) (f : Fields) : Bool :=
  match op with
  | .gld | .sld | .lld | .gamo | .samo | .gcas | .scas | .fdiv | .fsqrt | .frcp | .frsq | .fexp2 | .flog2 | .fsinpi
  | .fcospi | .vote | .ballot | .shfl | .skred | .skmatch | .rsquery => true
  | .movsr => f.a.idx = 0x0C ∨ f.a.idx = 0x0D
  | _ => false

/-- The v registers a source field names. -/
def srcRegs (sf : SForm) (s : Src) : List Nat :=
  if sf.used ∧ s.kind = .v then (List.range sf.n).map (s.idx.toNat + ·) else []

/-- The v registers read in each read cycle (R29): A, B, then C, with the old destination of PK8 in the third and
the four groups of PUSH. -/
def readCycles (op : Op) (lim : Limits) (f : Fields) : List (List Nat) :=
  let m := form op lim f
  match op with
  | .push => (List.range 4).map (fun i => (List.range 4).map (fun j => f.a.idx.toNat + 4 * i + j))
  | .pk8 => [srcRegs m.a f.a, srcRegs m.b f.b, [f.d.toNat]]
  | _ => [srcRegs m.a f.a, srcRegs m.b f.b,
      match m.x with | .reg n => (List.range n).map (f.x.toNat + ·) | .bits _ => []]

/-- Every v register the instruction reads. -/
def regsRead (op : Op) (lim : Limits) (f : Fields) : List Nat := (readCycles op lim f).flatten

/-- Every v register the instruction writes. -/
def regsWritten (op : Op) (lim : Limits) (f : Fields) : List Nat :=
  match (form op lim f).d with
  | .reg n => (List.range n).map (f.d.toNat + ·)
  | _ => []

/-- The predicate the instruction writes, if any. -/
def predWritten (op : Op) (lim : Limits) (f : Fields) : Option Nat :=
  match (form op lim f).d with
  | .pred => if op = .mov ∧ f.df = 1 then none else some (f.d.toNat % 8)
  | _ => none

/-- The banked register that MOV with DF = 01 writes (R160). -/
def bankWritten (op : Op) (f : Fields) : Option Nat := if op = .mov ∧ f.df = 1 then some (f.d.toNat % 8) else none

/-- The banked register that a kind-10 source of MOV reads (Table 6.3). -/
def banksRead (op : Op) (f : Fields) : List Nat :=
  if op = .mov ∧ f.a.kind = .alt ∧ f.a.idx.toNat < 8 then [f.a.idx.toNat] else []

/-- The registers of the source that HOLD names, none where the opcode has no such source (R30, R120), and none where it is a banked
register: R30 speaks of bank reads alone (DESIGN CHOICE, log 68). -/
def heldRegs (op : Op) (lim : Limits) (f : Fields) : List Nat :=
  let m := form op lim f
  match f.hold with
  | .none => []
  | .a => srcRegs m.a f.a
  | .b => srcRegs m.b f.b
  | .c => match m.x with | .reg n => (List.range n).map (f.x.toNat + ·) | .bits _ => []

/-- The predicates the instruction reads: its guard, which NOP ignores (R165), and those its operands name. -/
def predsRead (op : Op) (f : Fields) : List Nat :=
  (if op = .nop then [] else [f.gp.toNat]) ++
    match op with
    | .sel => [f.x.toNat % 8]
    | .plop => [f.a.idx.toNat % 8, f.b.idx.toNat % 8, f.x.toNat % 8]
    | .mov => if f.a.kind = .alt ∧ f.a.idx.toNat ≥ 8 then [f.a.idx.toNat % 8] else []
    | _ => []

end Machine
end Sys2Proof
end

