-- ==== Sys2Proof/Machine/Num.lean ====
section
/-!
DEFINITION. Exact numbers and correct rounding (chapter 04): a finite value is a sign, a natural mantissa and a
binary exponent, every operation is exact, and one rounding at the end goes to a format whose magnitudes are
numbered in rising order.
-/
namespace Sys2Proof.Machine

/-- The sticky flags a result raises (Table 4.3): bit 0 OVF, bit 1 INV, bit 2 UNF, bit 3 NAN. -/
abbrev FlagWord := BitVec 4
/-- OVF (Table 4.3). -/
def fOVF : FlagWord := 1
/-- INV (Table 4.3). -/
def fINV : FlagWord := 2
/-- UNF (Table 4.3). -/
def fUNF : FlagWord := 4
/-- NAN (Table 4.3). -/
def fNAN : FlagWord := 8

/-- A flag word when a condition holds. -/
def flagIf (c : Bool) (w : FlagWord) : FlagWord := if c then w else 0

/-- The value of a code of any format: NaN (signalling or quiet), an infinity, a zero, or (-1)^neg * m * 2^e. -/
inductive FV where
  | nan (sig : Bool)
  | inf (neg : Bool)
  | zero (neg : Bool)
  | fin (neg : Bool) (m : Nat) (e : Int)
  deriving DecidableEq, Repr

/-- Rounding modes (Table 4.2). -/
inductive RM where
  | rn | rz | ru | rd
  deriving DecidableEq, Repr

/-- The mode a 2-bit field names (Table 4.2). -/
def RM.of : Nat → RM
  | 0 => .rn
  | 1 => .rz
  | 2 => .ru
  | _ => .rd

/-- A format by its precision `p`, the exponent `q` of its smallest positive value's unit, its largest finite
magnitude code, whether it has infinities (whose code follows `maxCode`), its sign bit's place and its NaN code. -/
structure Fmt where
  p : Nat
  q : Int
  maxCode : Nat
  hasInf : Bool
  signBit : Nat
  nanCode : Nat
  deriving DecidableEq, Repr

/-- FP32 (Table 4.1). -/
def fp32 : Fmt := ⟨24, -149, 0x7F7FFFFF, true, 31, 0x7FC00000⟩
/-- FP16 (Table 4.1). -/
def fp16 : Fmt := ⟨11, -24, 0x7BFF, true, 15, 0x7E00⟩
/-- BF16 (Table 4.1). -/
def bf16 : Fmt := ⟨8, -133, 0x7F7F, true, 15, 0x7FC0⟩

/-- floor(log2 n) for n > 0. -/
def ilog2 (n : Nat) : Nat := n.log2

/-- m * 2^e for a finite value as a mantissa at the lower exponent `e'` (`e' ≤ e`). -/
def scaleTo (m : Nat) (e e' : Int) : Nat := m <<< (e - e').toNat

/-- A value strictly between m * 2^e and (m+1) * 2^e stands as (2m+1) * 2^(e-1). -/
def sticky (m : Nat) (e : Int) (inexact : Bool) : Nat × Int :=
  if inexact then (2 * m + 1, e - 1) else (m, e)

/-- Whether a positive remainder rounds the truncated magnitude up: `t` is the truncated mantissa at exponent `q`,
`r` the remainder out of `2^k` (R75; for P = 1 a tie goes to the even exponent, R83). -/
def roundUp (p : Nat) (rm : RM) (neg : Bool) (t : Nat) (q : Int) (r k : Nat) : Bool :=
  match rm with
  | .rz => false
  | .ru => !neg && r != 0
  | .rd => neg && r != 0
  | .rn =>
    let half := 2 ^ k
    if 2 * r > half then true
    else if 2 * r < half then false
    else if p == 1 && t == 1 then q % 2 != 0 else t % 2 == 1

/-- (-1)^neg * m * 2^e rounded to precision `p` with smallest unit `2^qmin` and no bound above: mantissa and exponent
(R76, R83 step 1). -/
def roundGrid (p : Nat) (qmin : Int) (rm : RM) (neg : Bool) (m : Nat) (e : Int) : Nat × Int :=
  let top : Int := (ilog2 m : Int) + e
  let q := max (top - ((p : Int) - 1)) qmin
  if e ≥ q then (scaleTo m e q, q)
  else
    let k := (q - e).toNat
    let t := m >>> k
    let r := m % 2 ^ k
    (if r != 0 && roundUp p rm neg t q r k then t + 1 else t, q)

/-- The magnitude code of mantissa `t` at exponent `q` of the format's grid: codes rise with magnitude. -/
def magCode (f : Fmt) (t : Nat) (q : Int) : Nat := (q - f.q).toNat * 2 ^ (f.p - 1) + t

/-- The mantissa and exponent of a magnitude code. -/
def magVal (f : Fmt) (c : Nat) : Nat × Int :=
  let h := 2 ^ (f.p - 1)
  if c < h then (c, f.q) else (c % h + h, f.q + ((c / h : Nat) : Int) - 1)

/-- The code with the sign bit. -/
def withSign (f : Fmt) (neg : Bool) (c : Nat) : Nat := if neg then c + 2 ^ f.signBit else c

/-- The code of an infinity. -/
def infCode (f : Fmt) (neg : Bool) : Nat := withSign f neg (f.maxCode + 1)

/-- An IEEE code's value (R74). -/
def ofIeee (f : Fmt) (c : Nat) : FV :=
  let neg := c / 2 ^ f.signBit % 2 == 1
  let a := c % 2 ^ f.signBit
  if a = 0 then .zero neg
  else if a ≤ f.maxCode then .fin neg (magVal f a).1 (magVal f a).2
  else if a = f.maxCode + 1 then .inf neg
  else .nan (a / 2 ^ (f.p - 2) % 2 == 0)

/-- A result code with the flags it raises. -/
structure Res where
  code : Nat
  flags : FlagWord
  deriving DecidableEq, Repr

/-- The canonical NaN raises NAN (R77, R167). -/
def nanRes (f : Fmt) (fl : FlagWord) : Res := ⟨f.nanCode, fNAN ||| fl⟩

/-- Whether an overflow goes to infinity in a mode (R76). -/
def overInf (rm : RM) (neg : Bool) : Bool :=
  match rm with
  | .rn => true
  | .rz => false
  | .ru => !neg
  | .rd => neg

/-- A finite nonzero value rounded to an IEEE format: overflow follows the mode and raises OVF, a zero result raises
UNF (R76, R77, R171). -/
def roundFin (f : Fmt) (rm : RM) (neg : Bool) (m : Nat) (e : Int) : Res :=
  let (t, q) := roundGrid f.p f.q rm neg m e
  let c := magCode f t q
  if c > f.maxCode then
    ⟨if overInf rm neg then infCode f neg else withSign f neg f.maxCode, fOVF⟩
  else ⟨withSign f neg c, flagIf (c == 0) fUNF⟩

/-- Any value as an arithmetic result of an IEEE format (R76, R77). -/
def roundArith (f : Fmt) (rm : RM) : FV → FlagWord → Res
  | .nan _, fl => nanRes f fl
  | .inf n, fl => ⟨infCode f n, fl⟩
  | .zero n, fl => ⟨withSign f n 0, fl⟩
  | .fin n m e, fl => let r := roundFin f rm n m e; ⟨r.code, r.flags ||| fl⟩

/-- INV for signalling NaNs among the operands (R77). -/
def sigFlags (xs : List FV) : FlagWord :=
  flagIf (xs.any (fun x => x == .nan true)) fINV

/-- Negation of a value; a NaN keeps its kind. -/
def FV.neg : FV → FV
  | .nan s => .nan s
  | .inf n => .inf (!n)
  | .zero n => .zero (!n)
  | .fin n m e => .fin (!n) m e

/-- The sign of a value (false for a NaN). -/
def FV.sign : FV → Bool
  | .nan _ => false
  | .inf n => n
  | .zero n => n
  | .fin n _ _ => n

/-- Whether a value is a NaN. -/
def FV.isNaN : FV → Bool
  | .nan _ => true
  | _ => false

/-- Whether a value is a zero. -/
def FV.isZero : FV → Bool
  | .zero _ => true
  | _ => false

/-- Whether a value is an infinity. -/
def FV.isInf : FV → Bool
  | .inf _ => true
  | _ => false

/-- An exact product; 0 times infinity is a NaN that raises INV (R171). -/
def mulFV (a b : FV) : FV × FlagWord :=
  let n := a.sign != b.sign
  match a, b with
  | .nan _, _ | _, .nan _ => (.nan false, 0)
  | .inf _, .zero _ | .zero _, .inf _ => (.nan false, fINV)
  | .inf _, _ | _, .inf _ => (.inf n, 0)
  | .zero _, _ | _, .zero _ => (.zero n, 0)
  | .fin _ m e, .fin _ m' e' => (.fin n (m * m') (e + e'), 0)

/-- The signed mantissa of a finite value at exponent `q`, which lies at or below its own. -/
def signedAt (q : Int) : FV → Int
  | .fin n m e => if n then -(scaleTo m e q : Int) else (scaleTo m e q : Int)
  | _ => 0

/-- The lowest exponent among the finite values. -/
def lowExp : List FV → Int → Int
  | [], q => q
  | .fin _ _ e :: r, q => lowExp r (min e q)
  | _ :: r, q => lowExp r q

/-- An exact sum (R171, R180): NaN from a NaN or from infinities of both signs (which raise INV), an infinity from
any other infinity, and the signs of exact zeros. -/
def sumFV (rm : RM) (xs : List FV) : FV × FlagWord :=
  if xs.any FV.isNaN then (.nan false, 0)
  else if xs.contains (.inf false) && xs.contains (.inf true) then (.nan false, fINV)
  else if xs.contains (.inf false) then (.inf false, 0)
  else if xs.contains (.inf true) then (.inf true, 0)
  else if xs.all (· == .zero false) then (.zero false, 0)
  else if xs.all (· == .zero true) then (.zero true, 0)
  else
    let q := lowExp xs 0
    let s := (xs.map (signedAt q)).foldl (· + ·) 0
    if s = 0 then (.zero (rm == .rd), 0)
    else (.fin (decide (s < 0)) s.natAbs q, 0)

/-- A sum rounded once (R171). -/
def addArith (f : Fmt) (rm : RM) (xs : List FV) (pre : FlagWord) : Res :=
  let (v, fl) := sumFV rm xs
  roundArith f rm v (fl ||| pre ||| sigFlags xs)

/-- FADD (R171). -/
def arAdd (f : Fmt) (rm : RM) (a b : FV) : Res := addArith f rm [a, b] 0
/-- FSUB (R171). -/
def arSub (f : Fmt) (rm : RM) (a b : FV) : Res := addArith f rm [a, b.neg] 0
/-- FMUL (R171). -/
def arMul (f : Fmt) (rm : RM) (a b : FV) : Res :=
  let (v, fl) := mulFV a b
  roundArith f rm v (fl ||| sigFlags [a, b])
/-- FFMA (R171). -/
def arFma (f : Fmt) (rm : RM) (a b c : FV) : Res :=
  let (v, fl) := mulFV a b
  addArith f rm [v, c] (fl ||| sigFlags [a, b, c])

/-- An order key of an IEEE code that is no NaN: magnitudes are numbered in rising order, both zeros are 0. -/
def ieeeKey (f : Fmt) (c : Nat) : Int :=
  let a := c % 2 ^ f.signBit
  if c / 2 ^ f.signBit % 2 == 1 then -(a : Int) else (a : Int)

/-- FMIN and FMAX (R172). -/
def arMinMax (f : Fmt) (mx : Bool) (a b : Nat) : Res :=
  let va := ofIeee f a
  let vb := ofIeee f b
  let fl := sigFlags [va, vb]
  if va.isNaN && vb.isNaN then nanRes f fl
  else if va.isNaN then ⟨b, fl⟩
  else if vb.isNaN then ⟨a, fl⟩
  else
    let ka := ieeeKey f a
    let kb := ieeeKey f b
    let aLess := ka < kb ∨ (ka = kb ∧ va.sign)
    ⟨if aLess then (if mx then b else a) else (if mx then a else b), fl⟩

/-- A floating-point comparison (Table 6.8), with INV for a signalling NaN (R174). -/
def arCmp (f : Fmt) (cc : Nat) (a b : Nat) : Bool × FlagWord :=
  let va := ofIeee f a
  let vb := ofIeee f b
  let un := va.isNaN || vb.isNaN
  let ka := ieeeKey f a
  let kb := ieeeKey f b
  let r := match cc with
    | 0 => !un && ka == kb
    | 1 => un || ka != kb
    | 2 => !un && decide (ka < kb)
    | 3 => !un && decide (ka ≤ kb)
    | 4 => !un && decide (ka > kb)
    | 5 => !un && decide (ka ≥ kb)
    | 6 => !un
    | _ => un
  (r, sigFlags [va, vb])

/-- The class bit of R175. -/
def classBit (f : Fmt) (c : Nat) : Nat :=
  match ofIeee f c with
  | .nan true => 8
  | .nan false => 9
  | .inf n => if n then 0 else 7
  | .zero n => if n then 3 else 4
  | .fin n _ _ =>
    let sub := c % 2 ^ f.signBit < 2 ^ (f.p - 1)
    if n then (if sub then 2 else 1) else (if sub then 5 else 6)

/-- A finite value rounded to an integer magnitude in a mode. -/
def roundInt (rm : RM) (neg : Bool) (m : Nat) (e : Int) : Nat :=
  if e ≥ 0 then scaleTo m e 0
  else
    let k := (-e).toNat
    let t := m >>> k
    let r := m % 2 ^ k
    if r != 0 && roundUp 2 rm neg t 0 r k then t + 1 else t

/-- FRND (R176). -/
def arRnd (f : Fmt) (rm : RM) (a : FV) : Res :=
  match a with
  | .fin n m e =>
    let i := roundInt rm n m e
    if i = 0 then ⟨withSign f n 0, 0⟩ else ⟨(roundFin f rm n i 0).code, 0⟩
  | v => roundArith f rm v (sigFlags [a])

/-- floor(log2 |a|) of a finite nonzero value. -/
def expOf (m : Nat) (e : Int) : Int := (ilog2 m : Int) + e

/-- A power-of-two scaling (FSCL, R177). Every value times 2^400 or more is out of range, and times 2^(-400) or less it lies
below half of the smallest one, so that `n` need not be larger. -/
def arScale (f : Fmt) (rm : RM) (a : FV) (n : Int) : Res :=
  match a with
  | .fin s m e => roundFin f rm s m (e + max (-400) (min n 400))
  | v => roundArith f rm v (sigFlags [a])

/-! ### The binary8 family (R80 to R85) -/

/-- PM1 + 1, the precision P of a 5-bit format code (Table 4.4). -/
def b8P (code : Nat) : Nat := code / 4 % 8 + 1
/-- U of a format code: unsigned (Table 4.4). -/
def b8U (code : Nat) : Bool := code / 2 % 2 == 1
/-- FIN of a format code: finite (Table 4.4). -/
def b8Fin (code : Nat) : Bool := code % 2 == 1

/-- The layout of a binary8 format (R81): the magnitudes are numbered as codes, with the infinity or the largest
finite value at 0x7F (signed) or 0xFE (unsigned). -/
def b8Fmt (code : Nat) : Fmt :=
  let p := b8P code
  let w := if b8U code then 9 - p else 8 - p
  let bias : Int := 2 ^ (w - 1)
  let top := if b8U code then 0xFE else 0x7F
  { p := p
    q := 2 - bias - (p : Int)
    maxCode := if b8Fin code then top else top - 1
    hasInf := !b8Fin code
    signBit := if b8U code then 8 else 7
    nanCode := if b8U code then 0xFF else 0x80 }

/-- B8Value (R81). A binary8 NaN is quiet. -/
def b8Value (code c : Nat) : FV :=
  let f := b8Fmt code
  if c = f.nanCode then .nan false
  else
    let neg := !b8U code && decide (c ≥ 0x80)
    let a := if b8U code then c else c % 0x80
    if a = 0 then .zero false
    else if a > f.maxCode then .inf neg
    else .fin neg (magVal f a).1 (magVal f a).2

/-- The format code of b8p1se, the scale format (R82). -/
def b8Scale : Nat := 0

/-- A conversion into binary8 (R83 to R85). -/
def convB8 (code : Nat) (rm : RM) (x : FV) : Res :=
  let f := b8Fmt code
  let u := b8U code
  match x with
  | .nan s => ⟨f.nanCode, fNAN ||| flagIf s fINV⟩
  | .zero _ => ⟨0, 0⟩
  | .inf n =>
    if u && n then ⟨0, fINV⟩
    else if f.hasInf then ⟨withSign f n (f.maxCode + 1), 0⟩
    else ⟨withSign f n f.maxCode, fOVF⟩
  | .fin n m e =>
    if u && n then ⟨0, fINV⟩
    else
      let (t, q) := roundGrid f.p f.q rm n m e
      let c := magCode f t q
      if c = 0 then ⟨0, fUNF⟩
      else if c > f.maxCode then ⟨withSign f n f.maxCode, fOVF⟩
      else ⟨withSign f n c, 0⟩

/-- A conversion into FP32, FP16 or BF16: saturating, with infinities and the sign of zero kept (R83, R84). -/
def convIeee (f : Fmt) (rm : RM) (x : FV) : Res :=
  match x with
  | .nan s => nanRes f (flagIf s fINV)
  | .inf n => ⟨infCode f n, 0⟩
  | .zero n => ⟨withSign f n 0, 0⟩
  | .fin n m e =>
    let (t, q) := roundGrid f.p f.q rm n m e
    let c := magCode f t q
    if c = 0 then ⟨withSign f n 0, fUNF⟩
    else if c > f.maxCode then ⟨withSign f n f.maxCode, fOVF⟩
    else ⟨withSign f n c, 0⟩

/-- The value of an integer. -/
def ofInt (i : Int) : FV := if i = 0 then .zero false else .fin (decide (i < 0)) i.natAbs 0

/-- CVTFI into an integer of width `w` (R183): the result modulo 2^w and the flags. -/
def convInt (w : Nat) (signed : Bool) (rm : RM) (x : FV) : Nat × FlagWord :=
  let hi : Int := if signed then 2 ^ (w - 1) - 1 else 2 ^ w - 1
  let lo : Int := if signed then -(2 ^ (w - 1)) else 0
  let wrap (i : Int) : Nat := (i % 2 ^ w).toNat
  match x with
  | .nan _ => (0, fINV)
  | .zero _ => (0, 0)
  | .inf n => if n then (if signed then (wrap lo, fOVF) else (0, fINV)) else (wrap hi, fOVF)
  | .fin n m e =>
    let r := roundInt rm n m e
    let i : Int := if n then -(r : Int) else (r : Int)
    if i < lo then (if signed then (wrap lo, fOVF) else (0, fINV))
    else if i > hi then (wrap hi, fOVF)
    else (wrap i, 0)

/-- The value of a float source of type code 0 to 2 (R179): FP32, FP16, BF16; other bits are ignored. -/
def fmtOf : Nat → Fmt
  | 0 => fp32
  | 1 => fp16
  | _ => bf16

/-- The value that a word holds as a scalar of a float type code (R166). -/
def floatOf (ty : Nat) (w : Word) : FV :=
  match ty with
  | 0 => ofIeee fp32 w.toNat
  | 1 => ofIeee fp16 (w.toNat % 65536)
  | _ => ofIeee bf16 (w.toNat % 65536)

/-- The value of an FP32 word. -/
def fv32 (w : Word) : FV := ofIeee fp32 w.toNat

end Sys2Proof.Machine
end

