-- ==== Sys2Proof/Machine/Operands.lean ====
section
/-!
DEFINITION. What an instruction that only computes reads and writes: the values of its sources (R145, R166) and what
it writes to its destination (R117), with the integer readings and narrowings that the classes share.
-/
namespace Sys2Proof.Machine

/-- The values a computing instruction has read before it writes anything (R117): sources A, B and C, each as wide as
the form says, the predicates p7 … p0 as bits, and the old value of its destination register (PK8, R184). -/
structure Opnds where
  a : Nat
  b : Nat
  c : Nat
  preds : BitVec 8
  old : Nat
  deriving DecidableEq, Repr

/-- What a computing instruction delivers: a value for the registers D names, a predicate, a banked register, and the
sticky flags it raises. -/
structure RegOut where
  val : Option Nat := none
  pred : Option Bool := none
  bank : Option Nat := none
  flags : FlagWord := 0
  deriving DecidableEq, Repr

/-- Int(x, W, s) (R145). -/
def intOf (x w : Nat) (s : Bool) : Int :=
  if s ∧ x % 2 ^ w ≥ 2 ^ (w - 1) then ((x % 2 ^ w : Nat) : Int) - 2 ^ w else ((x % 2 ^ w : Nat) : Int)

/-- y mod 2^W (R148). -/
def wrapTo (y : Int) (w : Nat) : Nat := (y % 2 ^ w).toNat

/-- The clamp of .sat (R148). -/
def clampTo (y : Int) (w : Nat) (s : Bool) : Int :=
  if s then min (max y (-(2 ^ (w - 1)))) (2 ^ (w - 1) - 1) else min (max y 0) (2 ^ w - 1)

/-- The width W that IT gives (R145). -/
def widthOf (f : Fields) : Nat := if f.wide then 64 else 32

/-- A result value. -/
def outVal (n : Nat) : RegOut := { val := some n }
/-- A result predicate. -/
def outPred (b : Bool) : RegOut := { pred := some b }
/-- A rounded result. -/
def outRes (r : Res) : RegOut := { val := some r.code, flags := r.flags }

/-- Bits [hi:lo] of a number, as a number. -/
def bitsOf (x lo n : Nat) : Nat := x / 2 ^ lo % 2 ^ n

/-- Predicate `i` of the predicates read. -/
def Opnds.p (e : Opnds) (i : Nat) : Bool := e.preds.getLsbD (i % 8)

end Sys2Proof.Machine
end

