-- ==== Sys2Proof/Machine/IntVal.lean ====
section
/-!
DEFINITION. The results of class 000 (chapter 07) as functions of the operand values alone.
-/
namespace Sys2Proof.Machine

/-- The common shape of R148: exact integers, .sat, reduction modulo 2^W. -/
def intOut (f : Fields) (e : Opnds) (sat : Bool) (g : Int → Int → Int → Int) : RegOut :=
  let w := widthOf f
  let y := g (intOf e.a w f.signed) (intOf e.b w f.signed) (intOf e.c w f.signed)
  outVal (wrapTo (if sat && f.sat then clampTo y w f.signed else y) w)

/-- IADD (R148). -/
def outIadd (f : Fields) (e : Opnds) : RegOut := intOut f e true (fun a b _ => a + b)
/-- ISUB (R148). -/
def outIsub (f : Fields) (e : Opnds) : RegOut := intOut f e true (fun a b _ => a - b)
/-- IMUL (R148). -/
def outImul (f : Fields) (e : Opnds) : RegOut := intOut f e false (fun a b _ => a * b)
/-- IMULHI (R148): the high half, rounding toward −∞. -/
def outImulhi (f : Fields) (e : Opnds) : RegOut := intOut f e false (fun a b _ => a * b / 2 ^ widthOf f)
/-- IMAD (R148): .sat clamps the exact a × b + c. -/
def outImad (f : Fields) (e : Opnds) : RegOut := intOut f e true (fun a b c => a * b + c)
/-- IMIN (R148). -/
def outImin (f : Fields) (e : Opnds) : RegOut := intOut f e false (fun a b _ => min a b)
/-- IMAX (R148). -/
def outImax (f : Fields) (e : Opnds) : RegOut := intOut f e false (fun a b _ => max a b)
/-- IABS (R148). -/
def outIabs (f : Fields) (e : Opnds) : RegOut := intOut f e false (fun a _ _ => (a.natAbs : Int))

/-- IMULW (R149). -/
def outImulw (f : Fields) (e : Opnds) : RegOut :=
  outVal (wrapTo (intOf e.a 32 f.signed * intOf e.b 32 f.signed) 64)
/-- ISAD (R149). -/
def outIsad (f : Fields) (e : Opnds) : RegOut :=
  outVal (((intOf e.a 32 f.signed - intOf e.b 32 f.signed).natAbs + e.c) % 2 ^ 32)

/-- LEA (R150): IT selects how the index is read. -/
def outLea (f : Fields) (e : Opnds) : RegOut :=
  let idx : Int := if f.wide then (e.b : Int) else intOf e.b 32 f.signed
  outVal (wrapTo ((e.a : Int) + idx * 2 ^ (f.x.toNat % 16)) 64)

/-- An integer condition (Table 6.8). -/
def intCond (cc : Nat) (a b : Int) : Bool :=
  match cc with
  | 0 => a == b
  | 1 => a != b
  | 2 => decide (a < b)
  | 3 => decide (a ≤ b)
  | 4 => decide (a > b)
  | _ => decide (a ≥ b)

/-- ICMP (R151). -/
def outIcmp (f : Fields) (e : Opnds) : RegOut :=
  let w := widthOf f
  outPred (intCond f.top3 (intOf e.a w f.signed) (intOf e.b w f.signed))

/-- SEL (R152). -/
def outSel (f : Fields) (e : Opnds) : RegOut :=
  outVal (if (e.p (f.x.toNat % 8) != f.x.getLsbD 3) then e.a else e.b)

/-- AND (R153). -/
def outAnd (_ : Fields) (e : Opnds) : RegOut := outVal (e.a &&& e.b)
/-- OR (R153). -/
def outOr (_ : Fields) (e : Opnds) : RegOut := outVal (e.a ||| e.b)
/-- XOR (R153). -/
def outXor (_ : Fields) (e : Opnds) : RegOut := outVal (e.a ^^^ e.b)
/-- ANDN (R153): a AND NOT b on W bits. -/
def outAndn (f : Fields) (e : Opnds) : RegOut := outVal (e.a &&& ((2 ^ widthOf f - 1) ^^^ e.b))

/-- SHL (R154). -/
def outShl (f : Fields) (e : Opnds) : RegOut :=
  let w := widthOf f
  outVal (if e.b ≥ w then 0 else e.a * 2 ^ e.b % 2 ^ w)
/-- SHR (R154). -/
def outShr (f : Fields) (e : Opnds) : RegOut :=
  outVal (if e.b ≥ widthOf f then 0 else e.a / 2 ^ e.b)
/-- SHA (R154). -/
def outSha (f : Fields) (e : Opnds) : RegOut :=
  let w := widthOf f
  outVal (wrapTo (intOf e.a w true / 2 ^ (min e.b (w - 1))) w)
/-- SHF (R155): a right funnel shift of B:A. -/
def outShf (_ : Fields) (e : Opnds) : RegOut :=
  outVal ((e.b * 2 ^ 32 + e.a) / 2 ^ (e.c % 64) % 2 ^ 32)

/-- The position and length that B names, shortened to the width (R156). -/
def fieldOf (b w : Nat) : Nat × Nat :=
  let pos := min (b % 256) w
  (pos, min (b / 256 % 256) (w - pos))
/-- BFX (R156). -/
def outBfx (f : Fields) (e : Opnds) : RegOut :=
  let w := widthOf f
  let (pos, len) := fieldOf e.b w
  let x := bitsOf e.a pos len
  outVal (if len = 0 then 0 else if f.signed then wrapTo (intOf x len true) w else x)
/-- BFI (R156). -/
def outBfi (f : Fields) (e : Opnds) : RegOut :=
  let w := widthOf f
  let (pos, len) := fieldOf e.b w
  outVal (e.c - bitsOf e.c pos len * 2 ^ pos + e.a % 2 ^ len * 2 ^ pos)

/-- The number of one bits among the low `n` bits. -/
def popCount (x n : Nat) : Nat := ((List.range n).filter (fun i => x.testBit i)).length
/-- POPC (R157). -/
def outPopc (f : Fields) (e : Opnds) : RegOut := outVal (popCount e.a (widthOf f))
/-- CLZ (R157). -/
def outClz (f : Fields) (e : Opnds) : RegOut :=
  outVal (widthOf f - (if e.a = 0 then 0 else e.a.log2 + 1))
/-- BREV (R157). -/
def outBrev (f : Fields) (e : Opnds) : RegOut :=
  let w := widthOf f
  outVal ((List.range w).foldl (fun y i => y + bit1 (e.a.testBit i) * 2 ^ (w - 1 - i)) 0)

/-- One result byte of PERM (R158). -/
def permByte (ba sel : Nat) : Nat :=
  let byte := bitsOf ba (8 * (sel % 8)) 8
  if sel ≥ 8 then (if byte ≥ 128 then 0xFF else 0x00) else byte
/-- PERM (R158). -/
def outPerm (_ : Fields) (e : Opnds) : RegOut :=
  let ba := e.b * 2 ^ 32 + e.a
  outVal ((List.range 4).foldl (fun y i => y + permByte ba (bitsOf e.c (4 * i) 4) * 2 ^ (8 * i)) 0)

/-- PLOP (R159): A and B hold predicate values. -/
def outPlop (f : Fields) (e : Opnds) : RegOut :=
  outPred (f.imm.toNat.testBit (4 * (e.a % 2) + 2 * (e.b % 2) + bit1 (e.p (f.x.toNat % 8))))

/-- MOV (R160): the file that DF names. -/
def outMov (f : Fields) (e : Opnds) : RegOut :=
  match f.df with
  | 0 => outVal e.a
  | 1 => { bank := some e.a }
  | _ => outPred (e.a % 2 == 1)

end Sys2Proof.Machine
end

