-- ==== Sys2Proof/Config.lean ====
section
/-!
DEFINITION. What an implementation fixes and the manual does not: free values with no body, so that nothing can be
proved of what they are (R2), and fused constants of the part.
-/
namespace Sys2Proof.Config

/-- The duration of an event whose figure the manual leaves open (R44), for the n-th such event. -/
opaque latency : Nat → Nat
/-- The time a write of a thread takes over a stage of its way to its ordering point (R98, R218, R223): by its issue, and by its
location and the stage. -/
opaque writeLatency : Nat → Nat → Nat
/-- The time a read of a thread takes over a stage of its way: by the access and the stage. -/
opaque readLatency : Nat → Nat → Nat
/-- How much later than its window a register of it receives its value (R31): by the window and the register. -/
opaque registerDelay : Nat → Nat → Nat
/-- The time from the ordering point to the acknowledgement: by the access. -/
opaque ackLatency : Nat → Nat
/-- The bytes of a quad whose contents have become unspecified (R62): by the count of such changes and the address. -/
opaque quadByte : Nat → Nat → Byte
/-- A byte of DRAM at the spill address of a return-stack entry that the hardware holds (R190): by the model's count of free values and
the address. -/
opaque spillByte : Nat → Nat → Byte
/-- A byte address within a quad that breaks R56, for an access to it (R412). -/
opaque tornByte : Nat → Nat → Nat
/-- The set of an L2 slice that a line occupies (R63): by global slice number and line number. -/
opaque l2Set : Nat → Nat → Nat
/-- A byte of a context image whose layout the manual does not give (Table 13.5): by the model's count of free values and its place. -/
opaque imageByte : Nat → Nat → Byte
/-- The length of the engines' section of a context image (Table 13.5): by its number of commands. -/
opaque engineSection : Nat → Nat
/-- Where in DRAM firmware keeps context images (R292), in areas of 8 MiB. -/
opaque contextArea : Nat
/-- The register of a thread whose entry is lost in a core cycle, if one is (R368): by the model's count of free values and the thread. -/
opaque registerError : Nat → Nat → Option Nat
/-- The granule of DRAM that is lost in a core cycle (R404). -/
opaque dramError : Nat → Option Nat
/-- The granule of an L2 line that is lost in a core cycle (R404). -/
opaque lineError : Nat → Nat → Option Nat
/-- The granule of a core's scratchpad that is lost in a core cycle (R404). -/
opaque scratchError : Nat → Nat → Option Nat
/-- The row of a core's tiles that is lost in a core cycle (R425). -/
opaque tileError : Nat → Nat → Option Nat
/-- Whether an error that is corrected falls in a core cycle (R403). -/
opaque corrected : Nat → Bool
/-- A unit that is fenced in a core cycle, for an uncorrectable error in it or on firmware's order (R426, R437, R438, R441): its kind (0 core,
1 matrix unit, 2 near-memory unit, 3 attention decode engine, 4 site controller) and its number. -/
opaque fenceOrder : Nat → Option (Nat × Nat)
/-- DRAINMAX as firmware sets it in a core cycle, if it does (R450), in µs. -/
opaque drainSetting : Nat → Option Nat
/-- Whether a weight slot is lost in a core cycle (R425). -/
opaque slotError : Nat → Nat → Bool
/-- Which line of a full set leaves it (R63). -/
opaque l2Victim : Nat → Nat
/-- Which translation leaves a full TLB (R52). -/
opaque tlbVictim : Nat → Nat
/-- Which line leaves a full instruction cache (R63). -/
opaque icacheVictim : Nat → Nat
/-- Whether a refill of a return-stack entry that software overwrote takes the value in memory (R190). -/
opaque refillFromMemory : Nat → Bool
/-- An accumulator element or stored element that R110 leaves unspecified. -/
opaque accWord : Nat → Word
/-- The fused device serial (Table 15.3). -/
opaque serial : DWord
/-- The fused device secret (R319). -/
opaque deviceSecret : List Byte
/-- The Falcon-1024 key pair that is generated from a digest (R319), as one number. -/
opaque falconKey : BitVec 512 → Nat
/-- The Falcon-1024 signature over a digest with a key, padded to 1,280 bytes (R319). -/
opaque falconSign : Nat → BitVec 512 → BitVec 10240
/-- Whether a Falcon-1024 signature over a digest is that of the Gelsovire root key, whose hash is fused (R319). -/
opaque rootVerifies : BitVec 512 → BitVec 10240 → Bool
/-- Whether the inbound filter of another device lets an access pass (R315): by the access and its address. -/
opaque remotePasses : Nat → Nat → Bool
/-- A byte of another device's registers as an access reads it (R315): by the access and the address. -/
opaque remoteByte : Nat → Nat → Byte
/-- A site's fused thermal coefficient, in 1/1000 °C/W (R305). -/
opaque theta : Nat → Nat
/-- The power estimate of a core for an interval, from activity counts that the manual does not define (R298): by the
model's count of free values and the core. -/
opaque activity : Nat → Nat → Nat
/-- What a sensor reads (R304, R452), in hundredths of a degree, or of an ampere (R453): by the model's count of free values and the sensor. -/
opaque reading : Nat → Nat → Int
/-- The bytes of a scale-out completion entry, whose layout the manual does not give (R317): by the model's count of free
values and the byte. -/
opaque completionByte : Nat → Nat → Byte
/-- The queue pair whose doorbell lies at an address of device-register space (R317), which the manual does not give. -/
opaque doorbell : Nat → Option Nat
/-- The residual error of a device's measured offset from its group's leader (R308), before its limit of 1 µs: by the model's count of
free values. -/
opaque offsetError : Nat → Int
/-- A site's measured power apart from its cores (R305), in 1/16 W: by the model's count of free values and the site. -/
opaque sitePower : Nat → Nat → Nat
/-- A core's measured power (R305), in 1/16 W: by the model's count of free values and the core. -/
opaque corePower : Nat → Nat → Nat

end Sys2Proof.Config
end

