-- ==== Sys2Proof/Machine/Sparse.lean ====
section
/-!
DEFINITION. Sparse maps from numbers to data as plain lists, and memory as a list of (address, byte) pairs with rising
addresses in which no listed byte equals what an unlisted address reads as (zero, log 1).
-/
namespace Sys2Proof.Machine

/-- A map from numbers to data: pairs with rising keys. -/
abbrev Sparse (α : Type) := List (Nat × α)

/-- The entry at a key. -/
def Sparse.get? {α : Type} (m : Sparse α) (k : Nat) : Option α :=
  match m with
  | [] => none
  | (j, x) :: r => if j = k then some x else Sparse.get? r k

/-- The entry at a key, or a default. -/
def Sparse.getD {α : Type} (m : Sparse α) (k : Nat) (d : α) : α := (Sparse.get? m k).getD d

/-- Writes the entry at a key, at its place in the rising order. -/
def Sparse.set {α : Type} (m : Sparse α) (k : Nat) (x : α) : Sparse α :=
  match m with
  | [] => [(k, x)]
  | (j, y) :: r => if k < j then (k, x) :: (j, y) :: r else if j = k then (k, x) :: r else (j, y) :: Sparse.set r k x

/-- Removes the entry at a key. -/
def Sparse.erase {α : Type} (m : Sparse α) (k : Nat) : Sparse α := m.filter (fun c => c.1 != k)

/-- Changes the entry at a key, taking a default where there is none. -/
def Sparse.modify {α : Type} (m : Sparse α) (k : Nat) (d : α) (g : α → α) : Sparse α :=
  Sparse.set m k (g (Sparse.getD m k d))

/-- Changes every entry. -/
def Sparse.mapVals {α : Type} (m : Sparse α) (g : Nat → α → α) : Sparse α := m.map (fun c => (c.1, g c.1 c.2))

/-- Writes consecutive words from a key; a zero word is no entry. -/
def Sparse.setRun (m : Sparse Word) (lo : Nat) (xs : List Word) : Sparse Word :=
  m.filter (fun c => decide (c.1 < lo)) ++ ((List.range' lo xs.length).zip xs).filter (fun c => c.2 != 0) ++
    m.filter (fun c => decide (lo + xs.length ≤ c.1))

/-- The keys. -/
def Sparse.keys {α : Type} (m : Sparse α) : List Nat := m.map (·.1)

/-- Puts an element into a sorted list, behind its equals. -/
def insertBy {α : Type} (le : α → α → Bool) (x : α) : List α → List α
  | [] => [x]
  | y :: r => if le y x then y :: insertBy le x r else x :: y :: r
/-- Sorts a list; elements of equal standing keep their order. -/
def sortBy {α : Type} (le : α → α → Bool) (l : List α) : List α := l.foldl (fun acc x => insertBy le x acc) []

/-- Memory: listed bytes with rising addresses (R5, R47, R68). -/
abbrev Memory := List Host.Cell

/-- What an unlisted byte reads as. DESIGN CHOICE (log 1): the manual gives no contents after power-on. -/
def unlistedByte : Byte := 0

/-- One byte of memory. -/
def Memory.read (m : Memory) (a : Nat) : Byte := Sparse.getD m a unlistedByte

/-- Writes one byte and keeps the canonical form: writing what an unlisted byte reads as removes the entry. -/
def Memory.write (m : Memory) (a : Nat) (b : Byte) : Memory :=
  if b = unlistedByte then Sparse.erase m a else Sparse.set m a b

/-- Keys rise strictly. -/
def risingFrom {α : Type} (lo : Nat) : List (Nat × α) → Bool
  | [] => true
  | (k, _) :: r => decide (lo ≤ k) && risingFrom (k + 1) r

/-- The canonical form of memory: strictly rising addresses and no listed byte that equals an unlisted one. -/
def Memory.wf (m : Memory) : Bool := risingFrom 0 m && m.all (fun c => c.2 != unlistedByte)

/-- `n` bytes from address `a`, lowest address first. -/
def Memory.readN (m : Memory) (a n : Nat) : List Byte := (List.range n).map (fun i => Memory.read m (a + i))

/-- The same in one pass over memory in its canonical form. -/
def Memory.readRun (m : Memory) (a : Nat) : Nat → List Byte
  | 0 => []
  | n + 1 =>
    match m.dropWhile (fun c => decide (c.1 < a)) with
    | [] => unlistedByte :: Memory.readRun [] (a + 1) n
    | (k, b) :: r => if k = a then b :: Memory.readRun r (a + 1) n else unlistedByte :: Memory.readRun ((k, b) :: r) (a + 1) n

/-- Writes bytes from address `a` upward. -/
def Memory.writeN (m : Memory) (a : Nat) : List Byte → Memory
  | [] => m
  | b :: r => Memory.writeN (Memory.write m a b) (a + 1) r

/-- A little-endian number from bytes (R5). -/
def leNat : List Byte → Nat
  | [] => 0
  | b :: r => b.toNat + 256 * leNat r

/-- The `n` little-endian bytes of a number (R5). -/
def leBytes : Nat → Nat → List Byte
  | 0, _ => []
  | n + 1, x => BitVec.ofNat 8 x :: leBytes n (x / 256)

end Sys2Proof.Machine
end

