-- ==== Sys2Proof/Machine/Parts.lean ====
section
/-!
DEFINITION. The parts of the machine that threads, blocks and memory accesses are made of (chapters 02, 05, 09, 10, 13,
21 and 23).
-/
namespace Sys2Proof.Machine

/-! ### Threads -/

/-- User or trap mode (R23, R351). -/
inductive Mode where
  | user | trap
  deriving DecidableEq, Repr

/-- Orderings of an access (Table 5.2). -/
inductive Ord where
  | plain | rlx | acq | rel | ar
  deriving DecidableEq, Repr

/-- Scopes (Table 5.1). -/
inductive Scope where
  | sk | stk | pkg | sys
  deriving DecidableEq, Repr

/-- A trap about to be taken: its cause and what TVAL and TINFO receive (R351). -/
structure TrapInfo where
  cause : Nat
  tval : Nat
  tinfo : Nat
  deriving DecidableEq, Repr

/-- Where an instruction's sticky flags go, fixed at issue (R40, R79, R353): a skein of the block, or the flag word of a
trap skein. -/
inductive FlagHome where
  | skein (k : Nat)
  | trap (n : Nat)
  deriving DecidableEq, Repr

/-- A fault mark of a register: cause 0x07 or 0x14, with SUB or ORIGIN (R402). -/
structure FaultMark where
  cause : Nat
  sub : Nat
  deriving DecidableEq, Repr

/-- What a long-latency instruction waits for (R31). -/
inductive PendKind where
  | func                                    -- function group, RSQUERY or MOVSR: the value is known, its time is not
  | load (n : Nat) (signed : Bool)          -- a load of n bytes
  | atom                                    -- an atomic with return, or a compare-and-swap
  | coll (trapSkein : Bool) (k : Nat)       -- a collective of a skein or a trap skein
  deriving DecidableEq, Repr

/-- An open lookahead window: the destination registers still to be written, the values once they are known, the
instructions that may still issue, and the flags that come with the result (R31, R168). -/
structure Pend where
  id : Nat
  op : Op
  left : Nat
  kind : PendKind
  regs : List Nat
  pred : Option Nat
  buf : Sparse Byte
  need : Nat
  acq : Bool                                -- of an acquire (R239)
  vals : Sparse Word
  pval : Bool
  ready : Bool
  mark : Option FaultMark
  flags : FlagWord
  home : FlagHome
  due : Nat
  overAt : Sparse Nat                       -- when an interlocked instruction of the window writes one of the registers (R31)
  predOver : Nat := 0                       -- the same for the predicate
  raises : Bool := false                    -- the result may bring flags that are not known yet (R168, R196)
  completion : Nat := 0                     -- of a collective: the completion that released it (R359)
  deriving DecidableEq, Repr

/-- Why a thread that has not exited is not ready (R211, R365). -/
inductive Wait where
  | none
  | branch (id : Nat)                       -- a predicate under R34 or R187
  | specEnd                                 -- a speculative path that waits for resolution (R34)
  | walk (id : Nat)                         -- a page walk of a fetch (R52)
  | dataWalk (id : Nat)                     -- a page walk of an access that has issued
  | access                                  -- an access whose walk, or whose branch, is over
  | specPort                                -- a device-register load that waits for resolution (R34)
  | flags                                   -- an arrival that waits for flags of earlier instructions (R168)
  | bar (trapSkein : Bool) (k : Nat)        -- BAR or a collective
  | bwait (core bslot off : Nat) (ph : Bool) (ea : Nat)   -- BWAIT on an object
  | seam (n : Nat) (ph : Bool)              -- SEAMWAIT
  | stwait (n : Nat)                        -- STWAIT
  | fence (sc : Scope)                      -- FENCE, or a CCTL that has not begun
  | operand                                 -- SEAMSIGN's operand fence (R110)
  | marker                                  -- a byte-barrier operation behind a marker or an earlier access (R103)
  | refill                                  -- RET behind a return-stack refill (R190)
  | serial                                  -- CRRD and CRWR serialisation (R204)
  | effect (id v : Nat)                     -- a CRWR to TLBINV, with its value, whose effect is still taking place (R53, R204)
  | sleep                                   -- SLEEP
  | yielded (count : Nat)                   -- YIELD, by the issue-permitted cycles of the slice till then (R192)
  | matrixRoom (stitch : Nat)               -- a full matrix queue, or an own acquire still to return (R239)
  | mates (stitch : Nat)                    -- entered, while a member of its stitch has not (R239)
  | matrixEntry (id stitch : Nat)           -- an accumulator entry (R253)
  | release (cycle : Nat)                   -- a completed barrier that releases the thread in a later cycle (Table 2.4)
  | window                                  -- a closed lookahead window (R31)
  | replay (cycle : Nat)                    -- re-insertion after a discarded path (R35)
  | closing                                 -- a trap that waits for the thread's windows to close (R351)
  | halted                                  -- BRK with breakpoints armed (R203)
  deriving DecidableEq, Repr

/-- A party of the wait graph (R365): a thread, a matrix entry of a core, or a command held at a node of a block. -/
inductive Party where
  | thread (tk : Nat)
  | entry (core id : Nat)
  | node (bk n : Nat)
  deriving DecidableEq, Repr

/-- A deferred report held for a thread (R401). -/
structure Report where
  cause : Nat
  tval : Nat
  tinfo : Nat
  deriving DecidableEq, Repr

/-- The member entry of a speculative path (R34): the branch it waits for, the instructions issued on it, whether the
prediction was taken, the flags it holds back, each with the cycle that sets it, and the trap, with its issue. -/
structure SpecPath where
  branch : Nat
  count : Nat
  taken : Bool
  flags : List (Nat × FlagHome × FlagWord)
  trap : Option (TrapInfo × Nat)
  deriving DecidableEq, Repr

/-- A thread's own state (R20). -/
structure Thread where
  pc : BitVec 56
  pcTop : Nat := 0                          -- bits [63:56] of an address that RET brought (R190)
  mode : Mode
  v : Sparse Word
  p : BitVec 8
  h : Sparse Word
  tpc : DWord
  tcause : DWord
  tval : DWord
  tinfo : DWord
  depth : Nat
  ret : Sparse DWord                        -- the hardware return-stack entries, by number (R190)
  skeins : BitVec 16
  trapSkein : Option Nat
  pst : Nat
  sleepAt : Nat
  wait : Wait
  waitSince : Nat                           -- core cycle in which the wait began (R366)
  unblocked : Nat := 0                      -- the last core cycle in which the wait was on memory (R365)
  pends : List Pend
  marks : Sparse FaultMark
  reports : List Report
  trapNext : List TrapInfo                  -- traps before the next instruction, in order (R358, R359)
  pendTrap : Option (TrapInfo × Nat × Bool) -- a trap being taken: cause, group, and whether it retires (R351)
  pendFault : Option TrapInfo               -- byte 39 bit [3] of the thread record (R364)
  delivers : Option Bool                    -- the trap being taken heads `trapNext` (true) or `reports` (false)
  refill : Option Nat                       -- a return-stack refill in flight (R190)
  spec : Option SpecPath
  readyAt : Sparse Nat                      -- slice cycle from which a register's result is ready (R32, Table 2.4)
  predAt : Sparse Nat                       -- the same for predicates
  bankAt : Sparse Nat                       -- the same for h0 to h7
  flagsDue : List (Nat × FlagHome × FlagWord)   -- flags to be set, each by the core's own cycle (R168); empty once set
  issued : Nat                              -- the issue in which the thread last issued
  entering : Nat                            -- the cause that entered the handler (R356)
  hb : List Nat                             -- accesses of other agents that happen-before the next one (R100, R107)
  seen : List (Scope × Nat × Nat)           -- what .rlx reads found: read scope, releasing thread, write (R99)
  fenced : List (Scope × List Nat)          -- by FENCE scope, the writes that it carries to later .rlx writes (R99)
  ordered : List Nat                        -- writes that earlier FENCEs of others order before its reads (R102)
  walkFail : Option (Nat × TrapInfo)        -- the last walk of the thread that failed, by VA[55:16]
  replayed : Bool                           -- issued nothing since a re-insertion by R35 (R210)
  exited : Bool
  deriving DecidableEq, Repr

/-- What a handler entry replaced, kept to the end of its core cycle: a halt or an expiry of that cycle finds the trap still
pending (R364). -/
structure HandlerEntry where
  info : TrapInfo
  pc : BitVec 56
  tpc : DWord
  tcause : DWord
  tval : DWord
  tinfo : DWord
  h : Sparse Word
  entering : Nat
  trapNext : List TrapInfo
  reports : List Report
  delivers : Option Bool
  pcTop : Nat
  deriving DecidableEq, Repr

/-! ### Skeins -/

/-- What an arrival brings to a phase (R195, R357): a thread, its PC, the opcode and the sources it read. -/
structure Arrival where
  t : Nat
  op : Op
  pc : BitVec 56
  a : Nat
  b : Nat
  x : Nat                                   -- the X field, which holds the mode or the operation
  pend : Nat
  accs : List Nat                           -- accesses in flight that precede the arrival or happen-before it (R107)
  deriving DecidableEq, Repr

/-- A pending barrier phase (R38): the members still expected, the arrivals, the arrivals that count for the next phase,
the fixing arrival's PC and kind, and the core cycle in which the phase began. -/
structure Phase where
  waiting : List Nat
  arrived : List Arrival
  late : List Arrival
  fixed : Option (BitVec 56 × Op)
  began : Nat
  deriving DecidableEq, Repr

/-- A trap skein (R353). -/
structure TrapSkein where
  num : Nat                                 -- never used again in its block, so that a late flag is told apart (R353)
  tag : Nat                                 -- its number, 0 to 3,071 (R294)
  key : Nat × Nat                           -- the issue whose members entered, and the cycle (R353)
  members : List Nat
  flags : FlagWord
  phase : Phase
  deriving DecidableEq, Repr

/-- A seam (R43). -/
structure Seam where
  declared : Nat
  sig : Nat
  phase : Bool
  deriving DecidableEq, Repr

/-! ### Memory accesses -/

/-- What an access does at its ordering point (R217, R218, R221, R225). -/
inductive Action where
  | load (n : Nat)
  | store (bytes : List Byte)
  | rmw (op w b : Nat) (ret : Bool)
  | cas (n old new : Nat)
  | refill (n : Nat)
  deriving DecidableEq, Repr

/-- Where an access goes: DRAM or device registers by physical address (Table 3.2), or scratchpads, one or more copies
by core, block slot and offset within the core's scratchpad (R68, R70). -/
inductive Place where
  | dram (pa : Nat) (uncached : Bool)
  | dev (pa : Nat)
  | scr (copies : List (Nat × Nat × Nat))
  deriving DecidableEq, Repr

/-- How far an access has come (Table 5.4): held in the slice, on the request mesh, at the Hem station or the scale-up
port, on the request mesh of the other site (R10, R12), answered with a retry, or performed at its ordering point and still to be
acknowledged or returned. -/
inductive Stage where
  | held | mesh | hem | far | retry | done
  deriving DecidableEq, Repr

/-- An access in flight (R98, R101, R111). `mark` counts the block's markers placed before it (R103); `before` are the
writes of other agents that happen-before it. -/
structure Req where
  id : Nat
  tk : Nat
  act : Action
  place : Place
  ord : Ord
  scope : Scope
  stage : Stage
  gen : Nat
  dom : Nat                                 -- the interleave domain that routed it, whose GEN `gen` is (R60)
  seq : Nat                                 -- the core cycle in which it was sent on the link that it is on (R12, R14)
  hem : Option Nat                          -- when the Hem station or the scale-up port first accepted it (Table 5.4)
  got : List Byte                           -- what a refill has read, until it is returned (R190)
  mark : Nat
  pend : Option Nat
  part : Nat
  before : List Nat
  rel : List (Scope × List Nat)             -- the releases that a write carries (R99): scope and the writes before it
  ordered : List Nat                        -- writes that a read must not miss by the fence order (R102)
  home : FlagHome
  counted : Bool
  group : Nat                               -- the first piece's identity, shared by the pieces of one store (R163, R215)
  peer : Bool                               -- takes the peer path or is mirrored (R69, R70)
  trap : TrapInfo                           -- what a deferred report of this access carries (R400, R404, R405)
  issue : Nat                               -- the issue of its stitch (R218, R223)
  priv : Bool                               -- of privileged code (R131, R361)
  due : Nat
  ackDue : Nat
  deriving DecidableEq, Repr

/-- What a released location carries for an acquire (R99): its scope, the releasing thread, and the writes that
happen-before the release and may still be on their way at wider scopes. -/
structure Release where
  scope : Scope
  tk : Nat
  writes : List Nat
  deriving DecidableEq, Repr

/-- A conditional or guarded branch whose predicate is in flight (R33 to R35, R187). -/
structure Branch where
  id : Nat
  issue : Nat                               -- the issue of its stitch
  core : Nat
  slice : Nat
  pc : BitVec 56
  mask : BitVec 32                          -- M
  taken : BitVec 32                         -- A
  pred : Option (BitVec 32)                 -- P
  last : BitVec 32                          -- last mask AND M at issue
  members : List (Nat × BitVec 56 × Bool)   -- thread key, actual next PC, taken
  due : Nat
  deriving DecidableEq, Repr

/-! ### Translation and caches -/

/-- A translation (R52): ASID, first VA page of 64 KiB, pages of 64 KiB covered, physical base, memory type and
permissions. -/
structure TlbEntry where
  asid : Nat
  vpn : Nat
  pages : Nat
  base : Nat
  mt : Nat
  u : Bool
  x : Bool
  w : Bool
  deriving DecidableEq, Repr

/-- A page walk in progress (R52), for the thread or engine that needs the translation. -/
structure Walk where
  id : Nat
  core : Nat
  asid : Nat
  vpn : Nat
  due : Nat
  deriving DecidableEq, Repr

/-- A line in an L2 slice (R63): its contents, whether it is dirty, the granules that are poisoned with their ORIGIN, and
the sharer vector of its copies (R66), with the slice of its site that holds each. -/
structure Line where
  data : BitVec 1024
  dirty : Bool
  poison : Sparse Nat
  sharers : BitVec 16
  copies : Sparse Nat                       -- by site, the L2 slice of the site that holds the copy
  slice : Nat                               -- global slice number, site × 16 + slice
  deriving DecidableEq, Repr

/-! ### Slices and stitches -/

/-- A stitch (R23): its key, its members by thread key in ascending lane order, its age, and the order in which its entry
was allocated. -/
structure Stitch where
  pc : BitVec 56
  bslot : Nat
  mode : Mode
  members : List (Nat × Nat)                -- lane, thread key
  age : Nat
  born : Nat
  deriving DecidableEq, Repr

/-- A mask-predictor entry (R33). -/
structure Predictor where
  last : BitVec 32
  conf : Nat
  deriving DecidableEq, Repr

/-- An operand-latch entry (R30). -/
structure Latch where
  members : List Nat                        -- the stitch, by its members' thread keys
  regs : List Nat                           -- the registers of the source that HOLD named
  uses : Nat
  deriving DecidableEq, Repr

/-- An issue slice (R17, R23 to R30, R33, R207, R209, R296). -/
structure Slice where
  table : List Stitch
  unlisted : List (Nat × Nat)               -- thread keys that wait for a free entry: (order, key), oldest first
  predictor : Sparse Predictor
  latch : List Latch
  counters : Sparse Nat
  cycle : Nat
  owed : Nat                                -- extra rows still to be read (R29)
  edge : Nat                                -- the core cycle of the last slice cycle
  sampled : Option Nat                      -- the last thread sampled: slot × 32 + lane (R209)
  held : Bool                               -- the last cycle was withheld by the cap
  rowed : Bool                              -- the last cycle completed an extra row
  issuedNow : List Nat                      -- thread keys that issued in the last cycle
  replayNow : List Nat                      -- those of them whose first issue since a re-insertion it was (R210)
  failed : Bool
  deriving DecidableEq, Repr

/-- The stitch that the model is issuing (the model's own, log 5): core, slice, block slot, members' thread keys in
ascending lane order, and the lanes they sit in. -/
structure Issue where
  id : Nat
  core : Nat
  slice : Nat
  bslot : Nat
  pc : BitVec 56
  mode : Mode
  members : List Nat
  deriving DecidableEq, Repr

/-! ### What the outside world brings -/

/-- One block's place as firmware chooses it (R284, R285): core, slot-table entry, launch-table entry, slot base, seam
set, first tile and scratchpad base in bytes. -/
structure Choice where
  core : Nat
  entry : Nat
  ltag : Nat
  slotb : Nat
  seamset : Nat
  abase : Nat
  spbase : Nat
  deriving DecidableEq, Repr

/-- What software does with a scale-out queue pair through its doorbell (R316, R317; log 28), and the answer to its outgoing work:
`send` covers a WRITE's and a SEND's data, `ask` is the request of an outgoing READ or atomic, `answer` what it brings back. -/
inductive ScaleOutWork where
  | setUp (asid cqVa : Nat)
  | region (va len : Nat)
  | receive (va n : Nat)
  | send (va n : Nat)
  | ask (bytes : List Byte)
  | answer (va : Nat) (bytes : List Byte)
  deriving DecidableEq, Repr

/-- A member's value of a round as it arrives (R307, R456): straight from the member, or by a relay that tells the group time at which
it first reached a member. -/
structure RoundValue where
  value : Nat
  relayed : Option Int
  deriving DecidableEq, Repr

/-- A measurement of a site's power (R305, R453), in 1/16 W: the site apart from its cores, and each core. -/
structure PowerReading where
  rest : Nat
  cores : List Nat
  deriving DecidableEq, Repr

/-- A link that carries flits (R406): a mesh link of a site, or a Hem segment. -/
inductive Link where
  | mesh (site mesh link : Nat)
  | hem (segment : Nat)
  deriving DecidableEq, Repr

/-- A unit that a start can fence (Table 25.5). -/
inductive StartUnit where
  | core (c : Nat)
  | l2 (site slice : Nat)
  | vault (site v : Nat)
  | channel (site v : Nat)
  | copy (core e : Nat)
  | matrix (core : Nat)
  | near (site u : Nat)
  | att (site : Nat)
  | site (s : Nat)
  deriving DecidableEq, Repr

/-- A firmware image and the signature that it carries (R319). -/
structure Image where
  bytes : List Byte
  signature : BitVec 10240
  deriving DecidableEq, Repr

/-- What a start finds (R318, R319, R459): the device number, the images in load order, the installed customer routines and the
micro-words of the near-memory units' control stores (R270), the routes, the units found bad, the step that fails for another
reason than its images with the site where it does, and the recovery image. -/
structure StartInfo where
  devno : Nat
  images : List Image
  routines : List Nat
  microcode : List (BitVec 192)
  routes : Sparse Nat
  bad : List StartUnit
  failedStep : Option (Nat × Nat)
  recovery : Image
  deriving DecidableEq, Repr

end Sys2Proof.Machine
end

