-- ==== Sys2Proof/Syntax.lean ====
section
/-!
DEFINITION. The steps of the machine, one constructor for each row of the table of operations and events: the 145
instructions of the word (each with its fields), an unassigned opcode, and the steps of the other agents with what
the outside world brings to them. The docstring of each names its row's rule.
-/
namespace Sys2Proof

/-- One whole, indivisible step. -/
inductive Instr where
  /-- NOP (R165). -/
  | nop (f : Fields)
  /-- IADD (R148). -/
  | iadd (f : Fields)
  /-- ISUB (R148). -/
  | isub (f : Fields)
  /-- IMUL (R148). -/
  | imul (f : Fields)
  /-- IMULHI (R148). -/
  | imulhi (f : Fields)
  /-- IMAD (R148). -/
  | imad (f : Fields)
  /-- IMIN (R148). -/
  | imin (f : Fields)
  /-- IMAX (R148). -/
  | imax (f : Fields)
  /-- IABS (R148). -/
  | iabs (f : Fields)
  /-- LEA (R150). -/
  | lea (f : Fields)
  /-- ICMP (R151). -/
  | icmp (f : Fields)
  /-- SEL (R152). -/
  | sel (f : Fields)
  /-- AND (R153). -/
  | and (f : Fields)
  /-- OR (R153). -/
  | or (f : Fields)
  /-- XOR (R153). -/
  | xor (f : Fields)
  /-- ANDN (R153). -/
  | andn (f : Fields)
  /-- SHL (R154). -/
  | shl (f : Fields)
  /-- SHR (R154). -/
  | shr (f : Fields)
  /-- SHA (R154). -/
  | sha (f : Fields)
  /-- SHF (R155). -/
  | shf (f : Fields)
  /-- BFX (R156). -/
  | bfx (f : Fields)
  /-- BFI (R156). -/
  | bfi (f : Fields)
  /-- POPC (R157). -/
  | popc (f : Fields)
  /-- CLZ (R157). -/
  | clz (f : Fields)
  /-- BREV (R157). -/
  | brev (f : Fields)
  /-- PERM (R158). -/
  | perm (f : Fields)
  /-- PLOP (R159). -/
  | plop (f : Fields)
  /-- MOV (R160). -/
  | mov (f : Fields)
  /-- MOVSR (R161). -/
  | movsr (f : Fields)
  /-- LDKX (R164). -/
  | ldkx (f : Fields)
  /-- ISAD (R149). -/
  | isad (f : Fields)
  /-- IMULW (R149). -/
  | imulw (f : Fields)
  /-- FADD (R171). -/
  | fadd (f : Fields)
  /-- FSUB (R171). -/
  | fsub (f : Fields)
  /-- FMUL (R171). -/
  | fmul (f : Fields)
  /-- FFMA (R171). -/
  | ffma (f : Fields)
  /-- FMIN (R172). -/
  | fmin (f : Fields)
  /-- FMAX (R172). -/
  | fmax (f : Fields)
  /-- FABS (R173). -/
  | fabs (f : Fields)
  /-- FNEG (R173). -/
  | fneg (f : Fields)
  /-- FCMP (R174). -/
  | fcmp (f : Fields)
  /-- FSET (R174). -/
  | fset (f : Fields)
  /-- FCLASS (R175). -/
  | fclass (f : Fields)
  /-- FRND (R176). -/
  | frnd (f : Fields)
  /-- FDIV (R178). -/
  | fdiv (f : Fields)
  /-- FSQRT (R178). -/
  | fsqrt (f : Fields)
  /-- FRCP (R178). -/
  | frcp (f : Fields)
  /-- FRSQ (R178). -/
  | frsq (f : Fields)
  /-- FEXP2 (R178). -/
  | fexp2 (f : Fields)
  /-- FLOG2 (R178). -/
  | flog2 (f : Fields)
  /-- FSINPI (R178). -/
  | fsinpi (f : Fields)
  /-- FCOSPI (R178). -/
  | fcospi (f : Fields)
  /-- FSCL (R177). -/
  | fscl (f : Fields)
  /-- FCPYS (R173). -/
  | fcpys (f : Fields)
  /-- FGETE (R177). -/
  | fgete (f : Fields)
  /-- FGETM (R177). -/
  | fgetm (f : Fields)
  /-- FSAT (R173). -/
  | fsat (f : Fields)
  /-- HADD2 (R180). -/
  | hadd2 (f : Fields)
  /-- HSUB2 (R180). -/
  | hsub2 (f : Fields)
  /-- HMUL2 (R180). -/
  | hmul2 (f : Fields)
  /-- HFMA2 (R180). -/
  | hfma2 (f : Fields)
  /-- HMIN2 (R180). -/
  | hmin2 (f : Fields)
  /-- HMAX2 (R180). -/
  | hmax2 (f : Fields)
  /-- HCMP2 (R180). -/
  | hcmp2 (f : Fields)
  /-- HDOT2 (R180). -/
  | hdot2 (f : Fields)
  /-- CVTF (R182). -/
  | cvtf (f : Fields)
  /-- CVTFI (R183). -/
  | cvtfi (f : Fields)
  /-- CVTIF (R182). -/
  | cvtif (f : Fields)
  /-- CVTF8 (R182). -/
  | cvtf8 (f : Fields)
  /-- CVT8F (R182). -/
  | cvt8f (f : Fields)
  /-- PK8 (R184). -/
  | pk8 (f : Fields)
  /-- UNPK8 (R184). -/
  | unpk8 (f : Fields)
  /-- PK16 (R182). -/
  | pk16 (f : Fields)
  /-- UNPK16 (R184). -/
  | unpk16 (f : Fields)
  /-- CVTSF8 (R185). -/
  | cvtsf8 (f : Fields)
  /-- HABS2 (R180). -/
  | habs2 (f : Fields)
  /-- HCLASS2 (R180). -/
  | hclass2 (f : Fields)
  /-- IPK16 (R181). -/
  | ipk16 (f : Fields)
  /-- IDOT4 (R181). -/
  | idot4 (f : Fields)
  /-- IADD2 (R181). -/
  | iadd2 (f : Fields)
  /-- IMIN2 (R181). -/
  | imin2 (f : Fields)
  /-- IMAX2 (R181). -/
  | imax2 (f : Fields)
  /-- BRA (R188). -/
  | bra (f : Fields)
  /-- JMPI (R189). -/
  | jmpi (f : Fields)
  /-- CALL (R189). -/
  | call (f : Fields)
  /-- CALLI (R189). -/
  | calli (f : Fields)
  /-- RET (R189). -/
  | ret (f : Fields)
  /-- EXIT (R191). -/
  | exit (f : Fields)
  /-- YIELD (R192). -/
  | yield (f : Fields)
  /-- SLEEP (R192). -/
  | sleep (f : Fields)
  /-- SKJOIN (R193). -/
  | skjoin (f : Fields)
  /-- SKLEAVE (R193). -/
  | skleave (f : Fields)
  /-- BAR (R194). -/
  | bar (f : Fields)
  /-- VOTE (R196). -/
  | vote (f : Fields)
  /-- BALLOT (R196). -/
  | ballot (f : Fields)
  /-- SHFL (R196). -/
  | shfl (f : Fields)
  /-- SKRED (R196). -/
  | skred (f : Fields)
  /-- SKMATCH (R196). -/
  | skmatch (f : Fields)
  /-- FLAGS (R197). -/
  | flags (f : Fields)
  /-- BINIT (R199). -/
  | binit (f : Fields)
  /-- BEXPECT (R199). -/
  | bexpect (f : Fields)
  /-- BARRIVE (R199). -/
  | barrive (f : Fields)
  /-- BWAIT (R199). -/
  | bwait (f : Fields)
  /-- BTEST (R199). -/
  | btest (f : Fields)
  /-- SEAMSET (R201). -/
  | seamset (f : Fields)
  /-- SEAMSIGN (R201). -/
  | seamsign (f : Fields)
  /-- SEAMWAIT (R201). -/
  | seamwait (f : Fields)
  /-- SEAMTEST (R201). -/
  | seamtest (f : Fields)
  /-- STWAIT (R202). -/
  | stwait (f : Fields)
  /-- GLD (R217). -/
  | gld (f : Fields)
  /-- GST (R218). -/
  | gst (f : Fields)
  /-- SLD (R217). -/
  | sld (f : Fields)
  /-- SST (R218). -/
  | sst (f : Fields)
  /-- LLD (R217). -/
  | lld (f : Fields)
  /-- LST (R218). -/
  | lst (f : Fields)
  /-- PREF (R226). -/
  | pref (f : Fields)
  /-- GAMO (R221). -/
  | gamo (f : Fields)
  /-- GRED (R221). -/
  | gred (f : Fields)
  /-- SAMO (R221). -/
  | samo (f : Fields)
  /-- SRED (R221). -/
  | sred (f : Fields)
  /-- GCAS (R225). -/
  | gcas (f : Fields)
  /-- SCAS (R225). -/
  | scas (f : Fields)
  /-- FENCE (R227). -/
  | fence (f : Fields)
  /-- MARK (R228). -/
  | mark (f : Fields)
  /-- CCTL (R229). -/
  | cctl (f : Fields)
  /-- MMA (R251). -/
  | mma (f : Fields)
  /-- ACCZ (R254). -/
  | accz (f : Fields)
  /-- ACCLD (R255). -/
  | accld (f : Fields)
  /-- ACCST (R255). -/
  | accst (f : Fields)
  /-- RSALLOC (R242). -/
  | rsalloc (f : Fields)
  /-- RSFILL (R243). -/
  | rsfill (f : Fields)
  /-- RSSRC (R244). -/
  | rssrc (f : Fields)
  /-- RSPIN (R247). -/
  | rspin (f : Fields)
  /-- RSUNPIN (R247). -/
  | rsunpin (f : Fields)
  /-- RSREVOKE (R249). -/
  | rsrevoke (f : Fields)
  /-- RSQUERY (R250). -/
  | rsquery (f : Fields)
  /-- ACCADD (R254). -/
  | accadd (f : Fields)
  /-- ACCMOV (R254). -/
  | accmov (f : Fields)
  /-- PUSH (R259). -/
  | push (f : Fields)
  /-- TRAP (R203). -/
  | trap (f : Fields)
  /-- BRK (R203). -/
  | brk (f : Fields)
  /-- TRET (R203). -/
  | tret (f : Fields)
  /-- CRRD (R204). -/
  | crrd (f : Fields)
  /-- CRWR (R204). -/
  | crwr (f : Fields)
  /-- CNTRD (R207). -/
  | cntrd (f : Fields)
  /-- TLBINV_WRITE (R53). -/
  | tlbinvWrite (core : Nat) (v : DWord)
  /-- SLHASH_WRITE (R61). -/
  | slhashWrite (site n : Nat) (v : DWord)
  /-- RSQUOTA_SET (R248). -/
  | rsquotaSet (core : Nat) (v : DWord)
  /-- RSQUOTA_SELECT (R248). -/
  | rsquotaSelect (core : Nat) (v : DWord)
  /-- SMPCTL_WRITE (R369). -/
  | smpctlWrite (core : Nat) (v : DWord)
  /-- SMPBASE_WRITE (R369). -/
  | smpbaseWrite (core : Nat) (v : DWord)
  /-- SMPSIZE_WRITE (R369). -/
  | smpsizeWrite (core : Nat) (v : DWord)
  /-- SMPWR_WRITE (R208). -/
  | smpwrWrite (core : Nat) (v : DWord)
  /-- SMPRD_WRITE (R369). -/
  | smprdWrite (core : Nat) (v : DWord)
  /-- SMPDROP_WRITE (R208). -/
  | smpdropWrite (core : Nat) (v : DWord)
  /-- TPC_WRITE (R350). -/
  | tpcWrite (tk : Nat) (v : DWord)
  /-- TVEC_WRITE (R206). -/
  | tvecWrite (v : DWord)
  /-- CONTROL_REGISTER_WRITE (R204). -/
  | controlRegisterWrite (core tk num : Nat) (v : DWord)
  /-- QCFG_WRITE (R446). -/
  | qcfgWrite (q : Nat) (v : DWord)
  /-- QRING_WRITE (R446). -/
  | qringWrite (q : Nat) (v : DWord)
  /-- QTAIL_WRITE (R277). -/
  | qtailWrite (q : Nat) (v : DWord)
  /-- QTRIG_WRITE (R283). -/
  | qtrigWrite (q : Nat) (v : DWord)
  /-- QGRAPH_WRITE (R446). -/
  | qgraphWrite (q : Nat) (firmware : Bool) (v : DWord)
  /-- FRAME_MODE_WRITE (R338). -/
  | frameModeWrite (site index : Nat) (v : Byte)
  /-- BIND_RECORD_WRITE (R286). -/
  | bindRecordWrite (core entry : Nat) (v : DWord)
  /-- DEVICE_REGISTER_WRITE (R466). -/
  | deviceRegisterWrite (firmware : Bool) (pa : Nat) (bytes : List Byte)
  /-- CONTROL_PORT_REGISTER_WRITE (R311). -/
  | controlPortRegisterWrite (port pa : Nat) (v : DWord)
  /-- CONTROL_PORT_REGISTER_READ (R311). -/
  | controlPortRegisterRead (port pa : Nat)
  /-- GRAPH_UPLOAD (R447). -/
  | graphUpload (port gid : Nat) (image : List Byte)
  /-- THROTTLE_GROUP_ASSIGNMENT (R306). -/
  | throttleGroupAssignment (gid : Nat) (devs : List Nat) (offset : Int)
  /-- START_COMMAND (R460). -/
  | startCommand (cold : Bool)
  /-- DEBUGGER_HALT (R363). -/
  | debuggerHalt (core bslot : Nat)
  /-- DEBUGGER_RESUME (R363). -/
  | debuggerResume (core bslot : Nat)
  /-- THREAD_RECORD_READ (R363). -/
  | threadRecordRead (tk : Nat)
  /-- THREAD_RECORD_WRITE (R363). -/
  | threadRecordWrite (tk : Nat) (bytes : List Byte)
  /-- BREAKPOINT_ARM (R203). -/
  | breakpointArm (on : Bool)
  /-- ATTESTATION (R319). -/
  | attestation (nonce : List Byte)
  /-- INBOUND_FILTER_ACCESS (R315). -/
  | inboundFilterAccess (port src pa : Nat) (act : Machine.Action)
  /-- RDMA_WRITE (R317). -/
  | rdmaWrite (port qp va : Nat) (bytes : List Byte) (imm : Option Word)
  /-- RDMA_READ (R317). -/
  | rdmaRead (port qp va n : Nat)
  /-- RDMA_SEND (R316). -/
  | rdmaSend (port qp : Nat) (bytes : List Byte)
  /-- RDMA_COMPARE_AND_SWAP (R316). -/
  | rdmaCompareAndSwap (port qp va : Nat) (old new : DWord)
  /-- RDMA_FETCH_AND_ADD (R316). -/
  | rdmaFetchAndAdd (port qp va : Nat) (b : DWord)
  /-- DOORBELL_WRITE (R317). -/
  | doorbellWrite (port qp : Nat) (w : Machine.ScaleOutWork)
  /-- CP_LOAD (R267). -/
  | cpLoad (core engine : Nat)
  /-- CP_STORE (R267). -/
  | cpStore (core engine : Nat)
  /-- CP_MOVE (R267). -/
  | cpMove (core engine : Nat)
  /-- NMU_FILL (R272). -/
  | nmuFill (site unit : Nat)
  /-- NMU_AXPY (R272). -/
  | nmuAxpy (site unit : Nat)
  /-- NMU_SUM_REDUCE (R272). -/
  | nmuSumReduce (site unit : Nat)
  /-- NMU_SCATTER_ADD (R272). -/
  | nmuScatterAdd (site unit : Nat)
  /-- NMU_GATHER (R272). -/
  | nmuGather (site unit : Nat)
  /-- NMU_RE_ENCODE (R272). -/
  | nmuReEncode (site unit : Nat)
  /-- NMU_CUSTOM_CALL (R271). -/
  | nmuCustomCall (site unit : Nat) (writes : List (Nat × Word × List Nat)) (landed : Nat) (flags : Machine.FlagWord)
  /-- ATT_DECODE (R274). -/
  | attDecode (site : Nat) (residueOk : Bool)
  /-- ENGINE_LANDING (R199). -/
  | engineLanding (id : Nat)
  /-- ENGINE_COMMAND_COMPLETE (R263). -/
  | engineCommandComplete (id : Nat)
  /-- SCRATCHPAD_PEER_ACCESS (R69). -/
  | scratchpadPeerAccess (id : Nat)
  /-- HOME_SLICE_REQUEST (R63). -/
  | homeSliceRequest (id : Nat)
  /-- GEN_RETRY (R60). -/
  | genRetry (id : Nat)
  /-- WALK_COMPLETE (R52). -/
  | walkComplete (id : Nat)
  /-- LONG_LATENCY_RESULT (R31). -/
  | longLatencyResult (tk pend reg : Nat)
  /-- STORE_ACKNOWLEDGE (R202). -/
  | storeAcknowledge (id : Nat)
  /-- BRANCH_RESOLUTION (R35). -/
  | branchResolution (id : Nat)
  /-- SLEEP_WAKE (R192). -/
  | sleepWake (tk : Nat)
  /-- DEFERRED_REPORT (R401). -/
  | deferredReport (tk cause tval tinfo : Nat)
  /-- WAIT_PROBE (R366). -/
  | waitProbe (p : Machine.Party)
  /-- MMA_START (R246). -/
  | mmaStart (core : Nat)
  /-- MMA_K_STEP (R251). -/
  | mmaKStep (core : Nat) (residueOk : Bool)
  /-- RSFILL_COMPLETE (R243). -/
  | rsfillComplete (core id : Nat)
  /-- ACCUMULATOR_ENTRY_COMPLETE (R253). -/
  | accumulatorEntryComplete (core id : Nat)
  /-- LAUNCH_BEGIN (R277). -/
  | launchBegin (q : Nat)
  /-- LAUNCH_COMPLETE (R281). -/
  | launchComplete (id : Nat)
  /-- GRAPH_RUN_BEGIN (R283). -/
  | graphRunBegin (q : Nat)
  /-- GRAPH_NODE_BEGIN (R284). -/
  | graphNodeBegin (run node : Nat)
  /-- BLOCK_DISPATCH (R288). -/
  | blockDispatch (launch : Nat) (places : List Machine.Choice)
  /-- BLOCK_END (R41). -/
  | blockEnd (core bslot : Nat)
  /-- QUANTUM_EXPIRY (R291). -/
  | quantumExpiry (q : Nat)
  /-- CONTEXT_SAVE_COMPLETE (R292). -/
  | contextSaveComplete (core bslot : Nat) (ok : Bool)
  /-- DRAINMAX_EXPIRY (R450). -/
  | drainmaxExpiry (core bslot : Nat)
  /-- QUILT_RESERVATION (R449). -/
  | quiltReservation (site launch quilt : Nat)
  /-- RESERVATION_CLEARING (R449). -/
  | reservationClearing (site : Nat)
  /-- REPLICATION_WINDOW (R65). -/
  | replicationWindow (site : Nat)
  /-- SAMPLER_TICK (R209). -/
  | samplerTick (core : Nat)
  /-- POWER_CONTROLLER_INTERVAL (R298). -/
  | powerControllerInterval (core est : Nat)
  /-- DROOP_DETECT (R300). -/
  | droopDetect (core : Nat)
  /-- DROOP_HOLD_EXPIRY (R300). -/
  | droopHoldExpiry (core : Nat)
  /-- GOVERNOR_EVALUATION (R305). -/
  | governorEvaluation (site : Nat) (tcool tdram : Int) (power : Machine.PowerReading) (moves : List (Nat × Nat × Nat))
  /-- DRAM_OVERTEMP (R304). -/
  | dramOvertemp (site : Nat) (tdram : Int)
  /-- THROTTLE_ROUND_BOUNDARY (R307). -/
  | throttleRoundBoundary
  /-- ROUND_VALUE_RECEIVED (R456). -/
  | roundValueReceived (dev : Nat) (value : Machine.RoundValue)
  /-- SENSOR_TEST (R452). -/
  | sensorTest (site : Nat) (readings : List Int) (power : Machine.PowerReading) (cool : Int × Int)
  /-- FLIT_CRC_ERROR (R406). -/
  | flitCrcError (link : Machine.Link) (failed : Bool)
  /-- SLICE_FENCE (R413). -/
  | sliceFence (site slice : Nat) (unreadable : List Nat)
  /-- PSEUDO_CHANNEL_FAILURE (R415). -/
  | pseudoChannelFailure (site vault : Nat)
  /-- COPY_ENGINE_FENCE (R435). -/
  | copyEngineFence (core engine : Nat)
  /-- NMU_CALL_TIMEOUT (R436). -/
  | nmuCallTimeout (site unit : Nat)
  /-- COLD_START (R318). -/
  | coldStart (info : Machine.StartInfo)
  /-- WARM_START (R318). -/
  | warmStart (info : Machine.StartInfo)
  /-- SLICE_CYCLE (R27). -/
  | sliceCycle (core slice : Nat)
  /-- UNASSIGNED_OPCODE (R130). -/
  | unassignedOpcode (opc : Byte) (f : Fields)
  /-- SCALE_UP_PORT_TIMEOUT (R405). -/
  | scaleUpPortTimeout (port : Nat)
  /-- ISSUE_SLICE_FAILURE (R441). -/
  | issueSliceFailure (core slice : Nat)
  /-- ASID_TEARDOWN (R249). -/
  | asidTeardown (asid : Nat)
  deriving DecidableEq, Repr

end Sys2Proof
end

