-- ==== Sys2Proof/Decode.lean ====
section
/-!
DEFINITION. Decoding a 96-bit word (R112, R129), total on any bytes, and the encoder written from the same tables.
Every word of a reserved or unassigned opcode decodes to `unassignedOpcode`, whose fate is R130; a word is refused
only where its 12 bytes are not there.
-/
namespace Sys2Proof

/-- Why bytes give no instruction. -/
inductive DecodeError where
  /-- Fewer than 12 bytes remain (R112). -/
  | truncated
  deriving DecidableEq, Repr

/-- The opcode byte of an assigned opcode (Tables 6.14 to 6.19). -/
def Op.code : Op → BitVec 8
  | .nop => 0x00
  | .iadd => 0x01
  | .isub => 0x02
  | .imul => 0x03
  | .imulhi => 0x04
  | .imad => 0x05
  | .imin => 0x06
  | .imax => 0x07
  | .iabs => 0x08
  | .lea => 0x09
  | .icmp => 0x0A
  | .sel => 0x0B
  | .and => 0x0C
  | .or => 0x0D
  | .xor => 0x0E
  | .andn => 0x0F
  | .shl => 0x10
  | .shr => 0x11
  | .sha => 0x12
  | .shf => 0x13
  | .bfx => 0x14
  | .bfi => 0x15
  | .popc => 0x16
  | .clz => 0x17
  | .brev => 0x18
  | .perm => 0x19
  | .plop => 0x1A
  | .mov => 0x1B
  | .movsr => 0x1C
  | .ldkx => 0x1D
  | .isad => 0x1E
  | .imulw => 0x1F
  | .fadd => 0x20
  | .fsub => 0x21
  | .fmul => 0x22
  | .ffma => 0x23
  | .fmin => 0x24
  | .fmax => 0x25
  | .fabs => 0x26
  | .fneg => 0x27
  | .fcmp => 0x28
  | .fset => 0x29
  | .fclass => 0x2A
  | .frnd => 0x2B
  | .fdiv => 0x2C
  | .fsqrt => 0x2D
  | .frcp => 0x2E
  | .frsq => 0x2F
  | .fexp2 => 0x30
  | .flog2 => 0x31
  | .fsinpi => 0x32
  | .fcospi => 0x33
  | .fscl => 0x34
  | .fcpys => 0x35
  | .fgete => 0x36
  | .fgetm => 0x37
  | .fsat => 0x38
  | .hadd2 => 0x40
  | .hsub2 => 0x41
  | .hmul2 => 0x42
  | .hfma2 => 0x43
  | .hmin2 => 0x44
  | .hmax2 => 0x45
  | .hcmp2 => 0x46
  | .hdot2 => 0x47
  | .cvtf => 0x48
  | .cvtfi => 0x49
  | .cvtif => 0x4A
  | .cvtf8 => 0x4B
  | .cvt8f => 0x4C
  | .pk8 => 0x4D
  | .unpk8 => 0x4E
  | .pk16 => 0x4F
  | .unpk16 => 0x50
  | .cvtsf8 => 0x51
  | .habs2 => 0x52
  | .hclass2 => 0x53
  | .ipk16 => 0x54
  | .idot4 => 0x55
  | .iadd2 => 0x56
  | .imin2 => 0x57
  | .imax2 => 0x58
  | .bra => 0x60
  | .jmpi => 0x61
  | .call => 0x62
  | .calli => 0x63
  | .ret => 0x64
  | .exit => 0x65
  | .yield => 0x66
  | .sleep => 0x67
  | .skjoin => 0x68
  | .skleave => 0x69
  | .bar => 0x6A
  | .vote => 0x6B
  | .ballot => 0x6C
  | .shfl => 0x6D
  | .skred => 0x6E
  | .skmatch => 0x6F
  | .flags => 0x70
  | .binit => 0x71
  | .bexpect => 0x72
  | .barrive => 0x73
  | .bwait => 0x74
  | .btest => 0x75
  | .seamset => 0x76
  | .seamsign => 0x77
  | .seamwait => 0x78
  | .seamtest => 0x79
  | .stwait => 0x7A
  | .gld => 0x80
  | .gst => 0x81
  | .sld => 0x82
  | .sst => 0x83
  | .lld => 0x84
  | .lst => 0x85
  | .pref => 0x86
  | .gamo => 0x88
  | .gred => 0x89
  | .samo => 0x8A
  | .sred => 0x8B
  | .gcas => 0x8C
  | .scas => 0x8D
  | .fence => 0x90
  | .mark => 0x91
  | .cctl => 0x92
  | .mma => 0xA0
  | .accz => 0xA1
  | .accld => 0xA2
  | .accst => 0xA3
  | .rsalloc => 0xA4
  | .rsfill => 0xA5
  | .rssrc => 0xA6
  | .rspin => 0xA7
  | .rsunpin => 0xA8
  | .rsrevoke => 0xA9
  | .rsquery => 0xAA
  | .accadd => 0xAB
  | .accmov => 0xAC
  | .push => 0xC0
  | .trap => 0xC1
  | .brk => 0xC2
  | .tret => 0xC3
  | .crrd => 0xC4
  | .crwr => 0xC5
  | .cntrd => 0xC6

/-- The assigned opcode of a byte, by Tables 6.14 to 6.19; none where Table 22.4 lists it. -/
def Op.ofCode (c : BitVec 8) : Option Op :=
  match c.toNat with
  | 0x00 => some .nop
  | 0x01 => some .iadd
  | 0x02 => some .isub
  | 0x03 => some .imul
  | 0x04 => some .imulhi
  | 0x05 => some .imad
  | 0x06 => some .imin
  | 0x07 => some .imax
  | 0x08 => some .iabs
  | 0x09 => some .lea
  | 0x0A => some .icmp
  | 0x0B => some .sel
  | 0x0C => some .and
  | 0x0D => some .or
  | 0x0E => some .xor
  | 0x0F => some .andn
  | 0x10 => some .shl
  | 0x11 => some .shr
  | 0x12 => some .sha
  | 0x13 => some .shf
  | 0x14 => some .bfx
  | 0x15 => some .bfi
  | 0x16 => some .popc
  | 0x17 => some .clz
  | 0x18 => some .brev
  | 0x19 => some .perm
  | 0x1A => some .plop
  | 0x1B => some .mov
  | 0x1C => some .movsr
  | 0x1D => some .ldkx
  | 0x1E => some .isad
  | 0x1F => some .imulw
  | 0x20 => some .fadd
  | 0x21 => some .fsub
  | 0x22 => some .fmul
  | 0x23 => some .ffma
  | 0x24 => some .fmin
  | 0x25 => some .fmax
  | 0x26 => some .fabs
  | 0x27 => some .fneg
  | 0x28 => some .fcmp
  | 0x29 => some .fset
  | 0x2A => some .fclass
  | 0x2B => some .frnd
  | 0x2C => some .fdiv
  | 0x2D => some .fsqrt
  | 0x2E => some .frcp
  | 0x2F => some .frsq
  | 0x30 => some .fexp2
  | 0x31 => some .flog2
  | 0x32 => some .fsinpi
  | 0x33 => some .fcospi
  | 0x34 => some .fscl
  | 0x35 => some .fcpys
  | 0x36 => some .fgete
  | 0x37 => some .fgetm
  | 0x38 => some .fsat
  | 0x40 => some .hadd2
  | 0x41 => some .hsub2
  | 0x42 => some .hmul2
  | 0x43 => some .hfma2
  | 0x44 => some .hmin2
  | 0x45 => some .hmax2
  | 0x46 => some .hcmp2
  | 0x47 => some .hdot2
  | 0x48 => some .cvtf
  | 0x49 => some .cvtfi
  | 0x4A => some .cvtif
  | 0x4B => some .cvtf8
  | 0x4C => some .cvt8f
  | 0x4D => some .pk8
  | 0x4E => some .unpk8
  | 0x4F => some .pk16
  | 0x50 => some .unpk16
  | 0x51 => some .cvtsf8
  | 0x52 => some .habs2
  | 0x53 => some .hclass2
  | 0x54 => some .ipk16
  | 0x55 => some .idot4
  | 0x56 => some .iadd2
  | 0x57 => some .imin2
  | 0x58 => some .imax2
  | 0x60 => some .bra
  | 0x61 => some .jmpi
  | 0x62 => some .call
  | 0x63 => some .calli
  | 0x64 => some .ret
  | 0x65 => some .exit
  | 0x66 => some .yield
  | 0x67 => some .sleep
  | 0x68 => some .skjoin
  | 0x69 => some .skleave
  | 0x6A => some .bar
  | 0x6B => some .vote
  | 0x6C => some .ballot
  | 0x6D => some .shfl
  | 0x6E => some .skred
  | 0x6F => some .skmatch
  | 0x70 => some .flags
  | 0x71 => some .binit
  | 0x72 => some .bexpect
  | 0x73 => some .barrive
  | 0x74 => some .bwait
  | 0x75 => some .btest
  | 0x76 => some .seamset
  | 0x77 => some .seamsign
  | 0x78 => some .seamwait
  | 0x79 => some .seamtest
  | 0x7A => some .stwait
  | 0x80 => some .gld
  | 0x81 => some .gst
  | 0x82 => some .sld
  | 0x83 => some .sst
  | 0x84 => some .lld
  | 0x85 => some .lst
  | 0x86 => some .pref
  | 0x88 => some .gamo
  | 0x89 => some .gred
  | 0x8A => some .samo
  | 0x8B => some .sred
  | 0x8C => some .gcas
  | 0x8D => some .scas
  | 0x90 => some .fence
  | 0x91 => some .mark
  | 0x92 => some .cctl
  | 0xA0 => some .mma
  | 0xA1 => some .accz
  | 0xA2 => some .accld
  | 0xA3 => some .accst
  | 0xA4 => some .rsalloc
  | 0xA5 => some .rsfill
  | 0xA6 => some .rssrc
  | 0xA7 => some .rspin
  | 0xA8 => some .rsunpin
  | 0xA9 => some .rsrevoke
  | 0xAA => some .rsquery
  | 0xAB => some .accadd
  | 0xAC => some .accmov
  | 0xC0 => some .push
  | 0xC1 => some .trap
  | 0xC2 => some .brk
  | 0xC3 => some .tret
  | 0xC4 => some .crrd
  | 0xC5 => some .crwr
  | 0xC6 => some .cntrd
  | _ => none

/-- The instruction of an opcode. -/
def Op.instr (f : Fields) : Op → Instr
  | .nop => .nop f
  | .iadd => .iadd f
  | .isub => .isub f
  | .imul => .imul f
  | .imulhi => .imulhi f
  | .imad => .imad f
  | .imin => .imin f
  | .imax => .imax f
  | .iabs => .iabs f
  | .lea => .lea f
  | .icmp => .icmp f
  | .sel => .sel f
  | .and => .and f
  | .or => .or f
  | .xor => .xor f
  | .andn => .andn f
  | .shl => .shl f
  | .shr => .shr f
  | .sha => .sha f
  | .shf => .shf f
  | .bfx => .bfx f
  | .bfi => .bfi f
  | .popc => .popc f
  | .clz => .clz f
  | .brev => .brev f
  | .perm => .perm f
  | .plop => .plop f
  | .mov => .mov f
  | .movsr => .movsr f
  | .ldkx => .ldkx f
  | .isad => .isad f
  | .imulw => .imulw f
  | .fadd => .fadd f
  | .fsub => .fsub f
  | .fmul => .fmul f
  | .ffma => .ffma f
  | .fmin => .fmin f
  | .fmax => .fmax f
  | .fabs => .fabs f
  | .fneg => .fneg f
  | .fcmp => .fcmp f
  | .fset => .fset f
  | .fclass => .fclass f
  | .frnd => .frnd f
  | .fdiv => .fdiv f
  | .fsqrt => .fsqrt f
  | .frcp => .frcp f
  | .frsq => .frsq f
  | .fexp2 => .fexp2 f
  | .flog2 => .flog2 f
  | .fsinpi => .fsinpi f
  | .fcospi => .fcospi f
  | .fscl => .fscl f
  | .fcpys => .fcpys f
  | .fgete => .fgete f
  | .fgetm => .fgetm f
  | .fsat => .fsat f
  | .hadd2 => .hadd2 f
  | .hsub2 => .hsub2 f
  | .hmul2 => .hmul2 f
  | .hfma2 => .hfma2 f
  | .hmin2 => .hmin2 f
  | .hmax2 => .hmax2 f
  | .hcmp2 => .hcmp2 f
  | .hdot2 => .hdot2 f
  | .cvtf => .cvtf f
  | .cvtfi => .cvtfi f
  | .cvtif => .cvtif f
  | .cvtf8 => .cvtf8 f
  | .cvt8f => .cvt8f f
  | .pk8 => .pk8 f
  | .unpk8 => .unpk8 f
  | .pk16 => .pk16 f
  | .unpk16 => .unpk16 f
  | .cvtsf8 => .cvtsf8 f
  | .habs2 => .habs2 f
  | .hclass2 => .hclass2 f
  | .ipk16 => .ipk16 f
  | .idot4 => .idot4 f
  | .iadd2 => .iadd2 f
  | .imin2 => .imin2 f
  | .imax2 => .imax2 f
  | .bra => .bra f
  | .jmpi => .jmpi f
  | .call => .call f
  | .calli => .calli f
  | .ret => .ret f
  | .exit => .exit f
  | .yield => .yield f
  | .sleep => .sleep f
  | .skjoin => .skjoin f
  | .skleave => .skleave f
  | .bar => .bar f
  | .vote => .vote f
  | .ballot => .ballot f
  | .shfl => .shfl f
  | .skred => .skred f
  | .skmatch => .skmatch f
  | .flags => .flags f
  | .binit => .binit f
  | .bexpect => .bexpect f
  | .barrive => .barrive f
  | .bwait => .bwait f
  | .btest => .btest f
  | .seamset => .seamset f
  | .seamsign => .seamsign f
  | .seamwait => .seamwait f
  | .seamtest => .seamtest f
  | .stwait => .stwait f
  | .gld => .gld f
  | .gst => .gst f
  | .sld => .sld f
  | .sst => .sst f
  | .lld => .lld f
  | .lst => .lst f
  | .pref => .pref f
  | .gamo => .gamo f
  | .gred => .gred f
  | .samo => .samo f
  | .sred => .sred f
  | .gcas => .gcas f
  | .scas => .scas f
  | .fence => .fence f
  | .mark => .mark f
  | .cctl => .cctl f
  | .mma => .mma f
  | .accz => .accz f
  | .accld => .accld f
  | .accst => .accst f
  | .rsalloc => .rsalloc f
  | .rsfill => .rsfill f
  | .rssrc => .rssrc f
  | .rspin => .rspin f
  | .rsunpin => .rsunpin f
  | .rsrevoke => .rsrevoke f
  | .rsquery => .rsquery f
  | .accadd => .accadd f
  | .accmov => .accmov f
  | .push => .push f
  | .trap => .trap f
  | .brk => .brk f
  | .tret => .tret f
  | .crrd => .crrd f
  | .crwr => .crwr f
  | .cntrd => .cntrd f

/-- The opcode byte and fields of an instruction that is a word. -/
def Instr.word? : Instr → Option (BitVec 8 × Fields)
  | .nop f => some (Op.code .nop, f)
  | .iadd f => some (Op.code .iadd, f)
  | .isub f => some (Op.code .isub, f)
  | .imul f => some (Op.code .imul, f)
  | .imulhi f => some (Op.code .imulhi, f)
  | .imad f => some (Op.code .imad, f)
  | .imin f => some (Op.code .imin, f)
  | .imax f => some (Op.code .imax, f)
  | .iabs f => some (Op.code .iabs, f)
  | .lea f => some (Op.code .lea, f)
  | .icmp f => some (Op.code .icmp, f)
  | .sel f => some (Op.code .sel, f)
  | .and f => some (Op.code .and, f)
  | .or f => some (Op.code .or, f)
  | .xor f => some (Op.code .xor, f)
  | .andn f => some (Op.code .andn, f)
  | .shl f => some (Op.code .shl, f)
  | .shr f => some (Op.code .shr, f)
  | .sha f => some (Op.code .sha, f)
  | .shf f => some (Op.code .shf, f)
  | .bfx f => some (Op.code .bfx, f)
  | .bfi f => some (Op.code .bfi, f)
  | .popc f => some (Op.code .popc, f)
  | .clz f => some (Op.code .clz, f)
  | .brev f => some (Op.code .brev, f)
  | .perm f => some (Op.code .perm, f)
  | .plop f => some (Op.code .plop, f)
  | .mov f => some (Op.code .mov, f)
  | .movsr f => some (Op.code .movsr, f)
  | .ldkx f => some (Op.code .ldkx, f)
  | .isad f => some (Op.code .isad, f)
  | .imulw f => some (Op.code .imulw, f)
  | .fadd f => some (Op.code .fadd, f)
  | .fsub f => some (Op.code .fsub, f)
  | .fmul f => some (Op.code .fmul, f)
  | .ffma f => some (Op.code .ffma, f)
  | .fmin f => some (Op.code .fmin, f)
  | .fmax f => some (Op.code .fmax, f)
  | .fabs f => some (Op.code .fabs, f)
  | .fneg f => some (Op.code .fneg, f)
  | .fcmp f => some (Op.code .fcmp, f)
  | .fset f => some (Op.code .fset, f)
  | .fclass f => some (Op.code .fclass, f)
  | .frnd f => some (Op.code .frnd, f)
  | .fdiv f => some (Op.code .fdiv, f)
  | .fsqrt f => some (Op.code .fsqrt, f)
  | .frcp f => some (Op.code .frcp, f)
  | .frsq f => some (Op.code .frsq, f)
  | .fexp2 f => some (Op.code .fexp2, f)
  | .flog2 f => some (Op.code .flog2, f)
  | .fsinpi f => some (Op.code .fsinpi, f)
  | .fcospi f => some (Op.code .fcospi, f)
  | .fscl f => some (Op.code .fscl, f)
  | .fcpys f => some (Op.code .fcpys, f)
  | .fgete f => some (Op.code .fgete, f)
  | .fgetm f => some (Op.code .fgetm, f)
  | .fsat f => some (Op.code .fsat, f)
  | .hadd2 f => some (Op.code .hadd2, f)
  | .hsub2 f => some (Op.code .hsub2, f)
  | .hmul2 f => some (Op.code .hmul2, f)
  | .hfma2 f => some (Op.code .hfma2, f)
  | .hmin2 f => some (Op.code .hmin2, f)
  | .hmax2 f => some (Op.code .hmax2, f)
  | .hcmp2 f => some (Op.code .hcmp2, f)
  | .hdot2 f => some (Op.code .hdot2, f)
  | .cvtf f => some (Op.code .cvtf, f)
  | .cvtfi f => some (Op.code .cvtfi, f)
  | .cvtif f => some (Op.code .cvtif, f)
  | .cvtf8 f => some (Op.code .cvtf8, f)
  | .cvt8f f => some (Op.code .cvt8f, f)
  | .pk8 f => some (Op.code .pk8, f)
  | .unpk8 f => some (Op.code .unpk8, f)
  | .pk16 f => some (Op.code .pk16, f)
  | .unpk16 f => some (Op.code .unpk16, f)
  | .cvtsf8 f => some (Op.code .cvtsf8, f)
  | .habs2 f => some (Op.code .habs2, f)
  | .hclass2 f => some (Op.code .hclass2, f)
  | .ipk16 f => some (Op.code .ipk16, f)
  | .idot4 f => some (Op.code .idot4, f)
  | .iadd2 f => some (Op.code .iadd2, f)
  | .imin2 f => some (Op.code .imin2, f)
  | .imax2 f => some (Op.code .imax2, f)
  | .bra f => some (Op.code .bra, f)
  | .jmpi f => some (Op.code .jmpi, f)
  | .call f => some (Op.code .call, f)
  | .calli f => some (Op.code .calli, f)
  | .ret f => some (Op.code .ret, f)
  | .exit f => some (Op.code .exit, f)
  | .yield f => some (Op.code .yield, f)
  | .sleep f => some (Op.code .sleep, f)
  | .skjoin f => some (Op.code .skjoin, f)
  | .skleave f => some (Op.code .skleave, f)
  | .bar f => some (Op.code .bar, f)
  | .vote f => some (Op.code .vote, f)
  | .ballot f => some (Op.code .ballot, f)
  | .shfl f => some (Op.code .shfl, f)
  | .skred f => some (Op.code .skred, f)
  | .skmatch f => some (Op.code .skmatch, f)
  | .flags f => some (Op.code .flags, f)
  | .binit f => some (Op.code .binit, f)
  | .bexpect f => some (Op.code .bexpect, f)
  | .barrive f => some (Op.code .barrive, f)
  | .bwait f => some (Op.code .bwait, f)
  | .btest f => some (Op.code .btest, f)
  | .seamset f => some (Op.code .seamset, f)
  | .seamsign f => some (Op.code .seamsign, f)
  | .seamwait f => some (Op.code .seamwait, f)
  | .seamtest f => some (Op.code .seamtest, f)
  | .stwait f => some (Op.code .stwait, f)
  | .gld f => some (Op.code .gld, f)
  | .gst f => some (Op.code .gst, f)
  | .sld f => some (Op.code .sld, f)
  | .sst f => some (Op.code .sst, f)
  | .lld f => some (Op.code .lld, f)
  | .lst f => some (Op.code .lst, f)
  | .pref f => some (Op.code .pref, f)
  | .gamo f => some (Op.code .gamo, f)
  | .gred f => some (Op.code .gred, f)
  | .samo f => some (Op.code .samo, f)
  | .sred f => some (Op.code .sred, f)
  | .gcas f => some (Op.code .gcas, f)
  | .scas f => some (Op.code .scas, f)
  | .fence f => some (Op.code .fence, f)
  | .mark f => some (Op.code .mark, f)
  | .cctl f => some (Op.code .cctl, f)
  | .mma f => some (Op.code .mma, f)
  | .accz f => some (Op.code .accz, f)
  | .accld f => some (Op.code .accld, f)
  | .accst f => some (Op.code .accst, f)
  | .rsalloc f => some (Op.code .rsalloc, f)
  | .rsfill f => some (Op.code .rsfill, f)
  | .rssrc f => some (Op.code .rssrc, f)
  | .rspin f => some (Op.code .rspin, f)
  | .rsunpin f => some (Op.code .rsunpin, f)
  | .rsrevoke f => some (Op.code .rsrevoke, f)
  | .rsquery f => some (Op.code .rsquery, f)
  | .accadd f => some (Op.code .accadd, f)
  | .accmov f => some (Op.code .accmov, f)
  | .push f => some (Op.code .push, f)
  | .trap f => some (Op.code .trap, f)
  | .brk f => some (Op.code .brk, f)
  | .tret f => some (Op.code .tret, f)
  | .crrd f => some (Op.code .crrd, f)
  | .crwr f => some (Op.code .crwr, f)
  | .cntrd f => some (Op.code .cntrd, f)
  | .unassignedOpcode opc f => some (opc, f)
  | _ => none

/-- The assigned opcode of an instruction that has one. -/
def Instr.op? : Instr → Option Op
  | .nop _ => some .nop
  | .iadd _ => some .iadd
  | .isub _ => some .isub
  | .imul _ => some .imul
  | .imulhi _ => some .imulhi
  | .imad _ => some .imad
  | .imin _ => some .imin
  | .imax _ => some .imax
  | .iabs _ => some .iabs
  | .lea _ => some .lea
  | .icmp _ => some .icmp
  | .sel _ => some .sel
  | .and _ => some .and
  | .or _ => some .or
  | .xor _ => some .xor
  | .andn _ => some .andn
  | .shl _ => some .shl
  | .shr _ => some .shr
  | .sha _ => some .sha
  | .shf _ => some .shf
  | .bfx _ => some .bfx
  | .bfi _ => some .bfi
  | .popc _ => some .popc
  | .clz _ => some .clz
  | .brev _ => some .brev
  | .perm _ => some .perm
  | .plop _ => some .plop
  | .mov _ => some .mov
  | .movsr _ => some .movsr
  | .ldkx _ => some .ldkx
  | .isad _ => some .isad
  | .imulw _ => some .imulw
  | .fadd _ => some .fadd
  | .fsub _ => some .fsub
  | .fmul _ => some .fmul
  | .ffma _ => some .ffma
  | .fmin _ => some .fmin
  | .fmax _ => some .fmax
  | .fabs _ => some .fabs
  | .fneg _ => some .fneg
  | .fcmp _ => some .fcmp
  | .fset _ => some .fset
  | .fclass _ => some .fclass
  | .frnd _ => some .frnd
  | .fdiv _ => some .fdiv
  | .fsqrt _ => some .fsqrt
  | .frcp _ => some .frcp
  | .frsq _ => some .frsq
  | .fexp2 _ => some .fexp2
  | .flog2 _ => some .flog2
  | .fsinpi _ => some .fsinpi
  | .fcospi _ => some .fcospi
  | .fscl _ => some .fscl
  | .fcpys _ => some .fcpys
  | .fgete _ => some .fgete
  | .fgetm _ => some .fgetm
  | .fsat _ => some .fsat
  | .hadd2 _ => some .hadd2
  | .hsub2 _ => some .hsub2
  | .hmul2 _ => some .hmul2
  | .hfma2 _ => some .hfma2
  | .hmin2 _ => some .hmin2
  | .hmax2 _ => some .hmax2
  | .hcmp2 _ => some .hcmp2
  | .hdot2 _ => some .hdot2
  | .cvtf _ => some .cvtf
  | .cvtfi _ => some .cvtfi
  | .cvtif _ => some .cvtif
  | .cvtf8 _ => some .cvtf8
  | .cvt8f _ => some .cvt8f
  | .pk8 _ => some .pk8
  | .unpk8 _ => some .unpk8
  | .pk16 _ => some .pk16
  | .unpk16 _ => some .unpk16
  | .cvtsf8 _ => some .cvtsf8
  | .habs2 _ => some .habs2
  | .hclass2 _ => some .hclass2
  | .ipk16 _ => some .ipk16
  | .idot4 _ => some .idot4
  | .iadd2 _ => some .iadd2
  | .imin2 _ => some .imin2
  | .imax2 _ => some .imax2
  | .bra _ => some .bra
  | .jmpi _ => some .jmpi
  | .call _ => some .call
  | .calli _ => some .calli
  | .ret _ => some .ret
  | .exit _ => some .exit
  | .yield _ => some .yield
  | .sleep _ => some .sleep
  | .skjoin _ => some .skjoin
  | .skleave _ => some .skleave
  | .bar _ => some .bar
  | .vote _ => some .vote
  | .ballot _ => some .ballot
  | .shfl _ => some .shfl
  | .skred _ => some .skred
  | .skmatch _ => some .skmatch
  | .flags _ => some .flags
  | .binit _ => some .binit
  | .bexpect _ => some .bexpect
  | .barrive _ => some .barrive
  | .bwait _ => some .bwait
  | .btest _ => some .btest
  | .seamset _ => some .seamset
  | .seamsign _ => some .seamsign
  | .seamwait _ => some .seamwait
  | .seamtest _ => some .seamtest
  | .stwait _ => some .stwait
  | .gld _ => some .gld
  | .gst _ => some .gst
  | .sld _ => some .sld
  | .sst _ => some .sst
  | .lld _ => some .lld
  | .lst _ => some .lst
  | .pref _ => some .pref
  | .gamo _ => some .gamo
  | .gred _ => some .gred
  | .samo _ => some .samo
  | .sred _ => some .sred
  | .gcas _ => some .gcas
  | .scas _ => some .scas
  | .fence _ => some .fence
  | .mark _ => some .mark
  | .cctl _ => some .cctl
  | .mma _ => some .mma
  | .accz _ => some .accz
  | .accld _ => some .accld
  | .accst _ => some .accst
  | .rsalloc _ => some .rsalloc
  | .rsfill _ => some .rsfill
  | .rssrc _ => some .rssrc
  | .rspin _ => some .rspin
  | .rsunpin _ => some .rsunpin
  | .rsrevoke _ => some .rsrevoke
  | .rsquery _ => some .rsquery
  | .accadd _ => some .accadd
  | .accmov _ => some .accmov
  | .push _ => some .push
  | .trap _ => some .trap
  | .brk _ => some .brk
  | .tret _ => some .tret
  | .crrd _ => some .crrd
  | .crwr _ => some .crwr
  | .cntrd _ => some .cntrd
  | _ => none

/-- Kind bits (Table 6.2). -/
def Kind.ofBits (b : BitVec 2) : Kind :=
  if b = 0 then .v else if b = 1 then .k else if b = 2 then .alt else .imm
/-- Kind bits (Table 6.2). -/
def Kind.bits : Kind → BitVec 2
  | .v => 0 | .k => 1 | .alt => 2 | .imm => 3
/-- HOLD bits (Table 6.1). -/
def Hold.ofBits (b : BitVec 2) : Hold :=
  if b = 0 then .none else if b = 1 then .a else if b = 2 then .b else .c
/-- HOLD bits (Table 6.1). -/
def Hold.bits : Hold → BitVec 2
  | .none => 0 | .a => 1 | .b => 2 | .c => 3
/-- BH bits (Table 2.3). -/
def Hint.ofBits (b : BitVec 2) : Hint :=
  if b = 0 then .pred else if b = 1 then .unif else if b = 2 then .wait else .rsvd
/-- BH bits (Table 2.3). -/
def Hint.bits : Hint → BitVec 2
  | .pred => 0 | .unif => 1 | .wait => 2 | .rsvd => 3

/-- The fields of a word (Table 6.1). -/
def fieldsOf (w : IWord) : Fields where
  fn := w.extractLsb' 80 8
  gn := w.getLsbD 79
  gp := w.extractLsb' 76 3
  la := w.extractLsb' 72 4
  hold := Hold.ofBits (w.extractLsb' 70 2)
  bh := Hint.ofBits (w.extractLsb' 68 2)
  d := w.extractLsb' 60 8
  a := ⟨Kind.ofBits (w.extractLsb' 58 2), w.extractLsb' 50 8⟩
  b := ⟨Kind.ofBits (w.extractLsb' 48 2), w.extractLsb' 40 8⟩
  x := w.extractLsb' 32 8
  imm := w.extractLsb' 0 32

/-- The opcode byte of a word (Table 6.1). -/
def opcodeOf (w : IWord) : BitVec 8 := w.extractLsb' 88 8

/-- The word of an opcode byte and fields (Table 6.1). -/
def wordOf (opc : BitVec 8) (f : Fields) : IWord :=
  opc ++ f.fn ++ BitVec.ofBool f.gn ++ f.gp ++ f.la ++ f.hold.bits ++ f.bh.bits ++ f.d ++ f.a.kind.bits ++ f.a.idx
    ++ f.b.kind.bits ++ f.b.idx ++ f.x ++ f.imm

/-- The instruction of a word (R129, R130). -/
def decodeWord (w : IWord) : Instr :=
  match Op.ofCode (opcodeOf w) with
  | some op => op.instr (fieldsOf w)
  | none => .unassignedOpcode (opcodeOf w) (fieldsOf w)

/-- The 96-bit word of twelve bytes (R112: three little-endian words, the least significant first). -/
def wordOfBytes (bs : List Byte) : IWord := BitVec.ofNat 96 (Machine.leNat bs)

/-- The twelve bytes of a word (R112). -/
def bytesOfWord (w : IWord) : List Byte := Machine.leBytes 12 w.toNat

/-- Decodes the instruction at the head of the bytes, and gives the rest. -/
def decode (bs : List Byte) : Except DecodeError (Instr × List Byte) :=
  if bs.length < 12 then .error .truncated
  else .ok (decodeWord (wordOfBytes (bs.take 12)), bs.drop 12)

/-- The word of an instruction; a step of another agent has none. -/
def encodeWord (i : Instr) : Option IWord := i.word?.map (fun x => wordOf x.1 x.2)

/-- The bytes of an instruction (R112). -/
def encode (i : Instr) : List Byte :=
  match encodeWord i with
  | some w => bytesOfWord w
  | none => []

/-- The instruction that the decoder reads from a word laid out in memory, numbered from its least significant bit. -/
def decodeTableWord (nbits w : Nat) : Option Instr :=
  match decode (Machine.leBytes 12 (w % 2 ^ nbits)) with
  | .ok (i, _) => some i
  | .error _ => none

end Sys2Proof
end

