-- ==== Sys2Proof/Machine/Units.lean ====
section
/-!
DEFINITION. The parts of the machine beyond threads: the matrix unit (chapter 11), the engines (12), queues, launches,
graphs and blocks (13), power and the governor (14, 25), ports (15).
-/
namespace Sys2Proof.Machine

/-! ### Matrix unit -/

/-- A weight slot (R233): tag, element codes by 512 × k + n (a 16-bit tile keeps its elements in its low slot), column
scales, and the poison mark of R425. -/
structure Slot where
  tag : Nat
  codes : Sparse Nat
  scales : Sparse Nat
  poison : Bool
  deriving DecidableEq, Repr

/-- States of a live residency (Table 11.5); REVOKED is the state of a handle with no live entry. -/
inductive RsState where
  | filling | valid | stale | evicted
  deriving DecidableEq, Repr

/-- A residency directory entry (R237, R238). `live` falls at RSREVOKE, and the entry stays until its in-use count is 0
(R249). `granules` are the physical granules with a resident-source bit (R244). -/
structure Residency where
  base : Nat
  cnt : Nat
  gen : Nat
  owner : Nat
  state : RsState
  filled : BitVec 32
  since : BitVec 32                         -- slots filled since allocation or the last stale mark (Table 11.10)
  pinned : Bool
  live : Bool
  src : Option (Nat × Nat)
  granules : List Nat
  inUse : Nat
  stamp : Nat
  deriving DecidableEq, Repr

/-- A matrix-queue entry with its operands (R239): `tile` and `tile2` are tiles of the core. -/
structure MxEntry where
  id : Nat
  op : Op
  tk : Nat
  pc : BitVec 56
  seam : Nat
  tile : Nat
  tile2 : Nat
  tileName : Nat
  handle : Nat
  off : Nat
  rows : Nat
  first : Nat
  at_ : Nat
  fmt : Nat
  staleOk : Bool
  slot : Nat
  bar : Nat
  home : FlagHome
  started : Bool
  p : Nat
  emp : BitVec 32                           -- slots that read as Empty, fixed at the MMA's first K step (R243)
  before : List Nat                         -- the thread's scratchpad writes that it reads after (R243, R253)
  mark : Nat                                -- the block's markers placed before it (R103)
  racing : Bool                             -- an MMA on `tile` was in flight when it entered the queue (R110)
  racing2 : Bool                            -- the same for `tile2`
  awaits : BitVec 32                        -- slots that earlier fills were to write when it passed its test (R240, R243)
  tested : Bool                             -- it has passed its stale test (R246)
  stepping : Bool                           -- its next K step has begun (R240)
  retries : Nat
  since : Nat                               -- when it entered the queue (R366)
  due : Nat
  deriving DecidableEq, Repr

/-! ### Engines -/

/-- A command in a queue, at a graph node or running (R259): its 64 bytes, the pushing thread, the flag skein fixed at
PUSH, the writes a REL waits for and the marker count of R103. -/
structure Cmd where
  id : Nat
  bytes : List Byte
  tk : Nat
  qn : Nat
  asid : Nat
  home : FlagHome
  before : List Nat
  mark : Nat
  succ : Option (BitVec 64)
  released : Bool                           -- released from its graph node (R264)
  heldSince : Nat                           -- when it arrived at its node (R366)
  due : Nat
  deriving DecidableEq, Repr

/-- A piece of a running command still to be written and landed (R269): at most 128 bytes, with the ORIGIN of the bytes
that depend on poison (R432), and its scratchpad address for a report (R467). A piece without bytes only lands. -/
structure Piece where
  place : Place
  bytes : List Byte
  poison : Sparse Nat
  land : Nat
  addr : Nat
  deriving DecidableEq, Repr

/-- A command that its engine has started (R263, R275). -/
structure Running where
  id : Nat
  core : Nat
  engine : Nat                              -- queue name number; for site engines the unit that runs it
  cmd : Cmd
  pieces : List Piece
  flags : FlagWord
  sawPoison : Bool
  failed : Option (Nat × Nat × Nat)         -- subcode, WHERE and BYTE of an abandonment still to be reported
  started : Nat
  due : Nat
  deriving DecidableEq, Repr

/-- A graph node of a block (R264). -/
structure Node where
  count : Int
  held : Option Cmd
  deriving DecidableEq, Repr

/-! ### Scheduling -/

/-- The fields of a launch descriptor (Table 13.2). -/
structure Desc where
  entry : BitVec 56
  const : Nat
  compl : Nat
  tlbase : Nat
  nblk : Nat
  scratch : Nat
  mirrOfs : Nat
  mirrLen : Nat
  loc : Nat
  tlSets : Nat
  affin : Nat
  restartable : Bool
  mirrored : Bool
  affinity : Bool
  strict : Bool
  quilt : Nat
  acc : Nat
  regs : Nat
  ntid : Nat
  fps : List (Nat × Nat × Nat)              -- base, stride, length
  deriving DecidableEq, Repr

/-- A work queue (Table 13.1). -/
structure Queue where
  quant : Nat
  asid : Nat
  en : Bool
  prio : Nat
  base : Nat
  log2n : Nat
  tail : Nat
  head : Nat
  plist : Nat
  gid : Nat
  refused : Bool
  work : List (Option (Nat × List (Nat × Nat × Nat)))  -- accepted work in order of its writes: a ring entry, or a trigger with its graph
  current : Option Nat                      -- the ring launch in progress
  run : Option Nat                          -- the graph run in progress
  begun : Nat
  quantum : Option Nat                      -- the core cycle in which the running quantum expires (R291)
  deriving DecidableEq, Repr

/-- A launch that has begun (R277 to R281, R440). -/
structure Launch where
  id : Nat
  queue : Nat
  node : Option (Nat × Nat)                 -- graph run and node
  seq : Nat
  ref : Nat                                 -- VA of the descriptor
  asid : Nat
  bytes : List Byte                         -- the 128 bytes of the descriptor as read
  desc : Desc
  consts : List Word
  next : Nat                                -- next block to dispatch
  ended : List Nat                          -- blocks that have ended
  lost : Nat
  lostBlks : List Nat                       -- blocks counted in LOST one by one (R356, R442)
  redo : List Nat                           -- blocks to dispatch again (R442)
  tries : Sparse Nat
  born : Sparse Nat                         -- by block, the order of its first dispatch (R291)
  unplaceable : Bool
  failed : Bool
  doubleFault : Bool
  skipped : Bool
  invalid : Bool
  deriving DecidableEq, Repr

/-- A node of an uploaded graph (R282). -/
structure GraphNode where
  desc : List Byte
  consts : List Word
  preds : Nat
  succs : List Nat
  deriving DecidableEq, Repr

/-- A graph run (R283, R444): per node the state: waiting, begun with a launch, completed with a CODE. -/
inductive NodeState where
  | waiting
  | begun (launch : Nat)
  | done (code : Nat)
  deriving DecidableEq, Repr

/-- A graph run in progress. -/
structure Run where
  id : Nat
  queue : Nat
  gid : Nat
  nodes : List NodeState
  deriving DecidableEq, Repr

/-- A resident block (R41, R285): its bind record, its launch's fields, seams, flags, phases, trap skeins, graph nodes,
quilt state and markers. -/
structure Block where
  core : Nat
  bslot : Nat
  launch : Nat
  asid : Nat
  blk : Nat
  desc : Desc
  consts : List Word
  slotb : Nat
  seamset : Nat
  abase : Nat
  accn : Nat
  spbase : Nat                              -- bytes
  spsize : Nat                              -- bytes
  qrank : Nat
  peers : List (Nat × Nat)                  -- by rank: core in the package, slot-table entry
  presence : BitVec 8
  orphans : Nat
  seams : Sparse Seam
  flags : Sparse FlagWord
  arms : Sparse FlagWord
  raised : Sparse (Nat × FlagWord)          -- by skein, the last core cycle in which flags were raised, and which (R197)
  phases : Sparse Phase
  trapSkeins : List TrapSkein
  trapCount : Nat                           -- trap skeins begun so far
  nodes : Sparse Node
  marks : Nat
  halted : Bool
  haltSent : Bool                           -- the halt's records have gone out (R363)
  stopping : Bool
  doubleFault : Bool
  discard : Bool                            -- lost: its context is to be discarded (R442)
  pause : Option Nat                        -- DRAINMAX deadline of a migration that waits (R450)
  skippedAt : Option Nat                    -- when a migration of it was last skipped (R451)
  born : Nat                                -- order of first dispatch in its launch (R291)
  since : Nat                               -- core cycle from which it is resident (R449)
  savedEntries : List MxEntry               -- entries of a restored block that wait for room (R256)
  savedCmds : List Cmd
  deriving DecidableEq, Repr

/-- A bind record as written (Table 13.4). -/
structure BindRecord where
  w0 : DWord
  w1 : DWord
  w2 : DWord
  w3 : DWord
  deriving DecidableEq, Repr

/-- A context image (Table 13.5) as the machine holds it: the sections whose bytes the manual gives stand in memory from CTX on
and are read back from there; the others are kept here as data (log 12). `record` and `ref` are the bind record and the launch
reference of the header. -/
structure Saved where
  record : BindRecord
  ref : List Byte
  block : Block
  threads : Sparse Thread
  tiles : Sparse (Sparse Word × List Nat)   -- by tile: words by 512 × row + column, poisoned rows
  entries : List MxEntry
  slotPoison : List Nat                     -- poisoned slots of the core to which its entries bind it (R425)
  stores : List Req
  rels : List (Nat × List Release)          -- the releases of its scratchpad's bytes, by offset (R99, R111)
  cmds : List Cmd
  scratch : Memory
  poison : Sparse Nat
  ctx : Nat
  bound : Option Nat                        -- the core it must return to (R256)
  broken : Bool                             -- the store-buffer section holds poison (R414)
  clk : Nat
  deriving DecidableEq, Repr

/-- A reservation of a site for an unplaceable quilt (R449). -/
structure Reservation where
  launch : Nat
  quilt : Nat
  since : Nat
  clearing : Bool
  reported : Bool
  deriving DecidableEq, Repr

/-! ### Cores, sites and the package -/

/-- A core (R8, R9) with its own registers and units. -/
structure Core where
  tlb : List TlbEntry
  icache : Sparse (BitVec 1024)
  records : Sparse BindRecord
  pre : Sparse (Nat × Nat × Nat)            -- by slot-table entry, the queue, graph and node that firmware pre-bound it for (R284)
  placed : Sparse Nat                       -- by slot-table entry, the launch that firmware placed there (log 12)
  launches : Sparse (List Byte)             -- launch table entries, 384 bytes
  ltvalid : BitVec 64
  scratch : Memory
  scrPoison : Sparse Nat
  slots : Sparse Slot
  dir : List Residency
  allocCtr : Nat
  stamp : Nat
  quotas : Sparse Nat
  quotaSel : Nat
  quotaRefused : Bool
  mxq : List MxEntry
  array : Option Nat                        -- the MMA that holds the array
  tiles : Sparse Word                       -- tile × 65,536 + 512 × row + column
  tilePoison : List Nat                     -- tile × 128 + row
  queues : Sparse (List Cmd)                -- by queue name number (Table 6.11)
  copyFenced : BitVec 2
  copyTurn : Nat                            -- the queue that a lone copy engine looks at first (R435)
  matrixFenced : Bool
  fenced : Bool
  budget : Nat
  est : Nat
  lvl : Int
  integ : Int
  nrat : Nat
  pcap : Nat
  droop : Bool
  droopSeen : Nat
  drhold : Nat
  lost : Nat                                -- %clk cycles without an edge of the halved core clock, since reset (R300)
  halvedFor : Nat                           -- %clk cycles halved in the present interval, counted to its end (R455)
  stormRun : Nat                            -- consecutive intervals in storm
  ceiling : Option (Int × Nat)              -- ceiling and the time it ends
  period : Nat
  slmask : BitVec 6
  det : Bool
  en : Bool
  smpBase : Nat
  smpSize : Nat
  smpWr : Nat
  smpRd : Nat
  smpDrop : Nat
  epoch : Nat
  offAt : Option Nat                        -- the %clk in which EN was last cleared: a tick of that cycle still takes place (R369)
  badBinds : Nat
  deriving DecidableEq, Repr

/-- A near-memory unit or attention decode engine of a site (R260, R271, R437, R438). -/
structure SiteEngine where
  fenced : Bool
  abandoned : Nat                           -- abandoned calls in a row
  next : Nat                                -- the core looked at first
  deriving DecidableEq, Repr

/-- A sensor's record (R452, R453): readings of the last 50 ms in hundredths of a degree, newest first. -/
structure Sensor where
  history : List Int
  failed : Bool
  paired : Bool
  used : Option Int
  deriving DecidableEq, Repr

/-- A site controller (Table 1.1): an RV64GC core and its 8 MiB of SRAM. What its firmware does arrives as events (log 62). -/
structure Controller where
  pc : DWord
  x : Sparse DWord
  f : Sparse DWord
  fcsr : Word
  sram : Memory
  deriving DecidableEq, Repr

/-- A site (R8). -/
structure Site where
  modes : Sparse (BitVec 4)                 -- frame mode entries that differ from 0 (R55)
  smask0 : BitVec 16
  fmask0 : BitVec 29
  gen0 : Nat
  smask1 : BitVec 16
  fmask1 : BitVec 29
  gen1 : Nat
  rthresh : Nat
  wthresh : Nat
  reads : Sparse Nat                        -- remote reads by frame (R65)
  writes : Sparse Nat
  uncachedIn : List Nat                     -- frames reached as uncached in the present window: not of type normal (log 60)
  replicated : List Nat
  tlb : List TlbEntry
  sliceFenced : BitVec 16
  chanFailed : Sparse Nat                   -- failed pseudo-channels by vault (R415)
  vaultFenced : BitVec 4
  units : Sparse SiteEngine                 -- 0 to 3 near-memory units, 4 the attention decode engine
  running : List Running
  local_ : Nat
  group : Nat
  applied : Nat
  forced : Bool
  tdram : Int
  power : Nat                               -- P in 1/16 W (R305)
  powerHist : List Nat
  sensors : Sparse Sensor                   -- 4v + i DRAM, 16 + 4c + i logic
  coolFail : Bool
  noTrust : Bool
  silent : Bool
  linkFailed : List (Nat × Nat)             -- failed links of a mesh: mesh, link
  fenced : Bool
  reservation : Option Reservation
  controller : Controller
  deriving DecidableEq, Repr

/-- A throttle-group member as this device sees it (R306 to R308, R457). -/
structure Member where
  dev : Nat
  last : Nat
  now : Option Nat
  missing : Nat
  deriving DecidableEq, Repr

/-- The throttle group of this device. -/
structure Group where
  gid : Nat
  members : List Member
  leader : Nat                              -- whose count defines group time (R308)
  offset : Int                              -- the leader's count less %clk (R308)
  error : Int                               -- what the last measurement of it missed it by, at most 1 µs
  next : Int                                -- the group time of the next boundary
  state : Nat                               -- the group state last applied
  sent : Nat                                -- the value this device sent in the present round
  deriving DecidableEq, Repr

/-- What leaves the device (R311, R315 to R317, R363, R319). -/
inductive Msg where
  | reply (port : Nat) (val : Nat)
  | halt (bytes : List Byte)
  | report (text : String) (vals : List Nat)
  | attest (bytes : List Byte)
  | remote (port dev pa : Nat) (act : Action)
  | rdma (qp : Nat) (bytes : List Byte)
  deriving DecidableEq, Repr

/-- A scale-out queue pair (R316): receive buffers posted and completion entries written, by VA of an ASID. -/
structure Qp where
  asid : Nat
  regionVa : Nat
  regionLen : Nat
  recvVa : List (Nat × Nat)
  cqVa : Nat
  cqNext : Nat
  deriving DecidableEq, Repr

end Sys2Proof.Machine
end

