-- ==== Sys2Proof/Machine/Flags.lean ====
section
/-!
DEFINITION. Sticky flags (R40, R78, R79, R353): the skein, or the trap skein's flag word, that an instruction's flags go to,
and how a block keeps them. What each operation raises stands with the operation (Num, Trans, IntVal, FloatVal, KStep).
-/
namespace Sys2Proof.Machine

/-- The lowest-numbered skein among 1–15 that the thread belongs to, or 0 (R40). -/
def lowSkein (m : BitVec 16) : Nat := ((List.range 15).map (· + 1)).find? (fun k => m.getLsbD k) |>.getD 0

/-- The flag skein of a thread's next instruction (R40, R79). -/
def flagHome (t : Thread) : FlagHome :=
  match t.mode, t.trapSkein with
  | .trap, some n => .trap n
  | _, _ => .skein (lowSkein t.skeins)

/-- The number of a trap skein (R294), 0xFFFF where it is no more. -/
def Block.trapTag (b : Block) (n : Nat) : Nat := match b.trapSkeins.find? (fun z => z.num = n) with | some z => z.tag | none => 0xFFFF

/-- Sets flags in a block: in a skein's word, or in the word of a trap skein that still exists (R79, R353). -/
def Block.land (b : Block) (h : FlagHome) (w : FlagWord) : Block :=
  if w = 0 then b
  else match h with
  | .skein k => { b with flags := Sparse.modify b.flags k 0 (· ||| w) }
  | .trap n =>
    { b with trapSkeins := b.trapSkeins.map (fun z => if z.num = n then { z with flags := z.flags ||| w } else z) }

/-- Sets flags in a core cycle: a .clr of that cycle leaves them set (R197). -/
def Block.raise (b : Block) (clk : Nat) (h : FlagHome) (w : FlagWord) : Block :=
  if w = 0 then b
  else match h with
  | .skein k =>
    let now := match Sparse.get? b.raised k with | some (c, x) => if c = clk then x ||| w else w | none => w
    { b.land h w with raised := Sparse.set b.raised k (clk, now) }
  | .trap _ => b.land h w

end Sys2Proof.Machine
end

