-- ==== Sys2Proof/Machine/State.lean ====
section
/-!
DEFINITION. The whole state of the package as plain data, what can stop it, and the state right after reset.
-/
namespace Sys2Proof.Machine

/-- Why the machine stops. -/
inductive Fault where
  /-- Raised by `step` while the package is held in reset with no start to perform: after a failed start (R459), while the
  recovery image does not verify (R460), or between a start command and its start. Safe: nothing runs until the outside
  brings a start. -/
  | heldInReset
  deriving DecidableEq, Repr

/-- Why an instruction has no meaning. -/
inductive Refusal where
  /-- Raised by an arm of `exec` that is not modelled. Safe: it stops where the machine goes on. -/
  | notModelled (mnemonic : String)
  deriving DecidableEq, Repr

/-- A skein barrier phase with no members and no arrivals. -/
def Phase.empty (clk : Nat) : Phase := ⟨[], [], [], none, clk⟩

/-- A slice after reset: ratio counters at 0 and every table empty (R23, R33, R207); an empty predictor reads as last mask 0 and
confidence 0 (log 61). -/
def Slice.reset : Slice :=
  { table := [], unlisted := [], predictor := [], latch := [], counters := [], cycle := 0, owed := 0, edge := 0, sampled := none
    held := false, rowed := false, issuedNow := [], replayNow := []
    failed := false }

/-- A core after reset (R205, R237, R298 to R300). -/
def Core.reset : Core :=
  { tlb := [], icache := [], records := [], pre := [], placed := [], launches := [], ltvalid := 0, scratch := [], scrPoison := [], slots := []
    dir := [], allocCtr := 1, stamp := 0, quotas := [], quotaSel := 0, quotaRefused := false, mxq := [], array := none
    tiles := [], tilePoison := [], queues := [], copyFenced := 0, copyTurn := 0, matrixFenced := false, fenced := false
    budget := 0x0160, est := 0, lvl := 12, integ := 0, nrat := 8, pcap := 8, droop := false, droopSeen := 0
    drhold := 2000, lost := 0, halvedFor := 0, stormRun := 0, ceiling := none
    period := 0, slmask := 0, det := false, en := false, smpBase := 0, smpSize := 0, smpWr := 0, smpRd := 0
    smpDrop := 0, epoch := 0, offAt := none, badBinds := 0 }

/-- A site controller after reset (log 62). -/
def Controller.reset : Controller := ⟨0, [], [], 0, []⟩

/-- A site after a cold start (R55, R58, R65, R305). -/
def Site.reset : Site :=
  { modes := [], smask0 := 0xFFFF, fmask0 := 0x1FFFFFFF, gen0 := 0, smask1 := 0xFFFF, fmask1 := 0x1FFFFFFF, gen1 := 0
    rthresh := 256, wthresh := 4, reads := [], writes := [], uncachedIn := [], replicated := [], tlb := [], sliceFenced := 0
    chanFailed := [], vaultFenced := 0, units := [], running := [], local_ := 0, group := 0, applied := 0
    forced := false, tdram := 2500, power := 0, powerHist := [], sensors := [], coolFail := false, noTrust := false
    silent := false, linkFailed := [], fenced := false, reservation := none
    controller := Controller.reset }

/-- A work queue after reset (Table 13.1; log 4). -/
def Queue.reset : Queue :=
  { quant := 2000, asid := 0, en := false, prio := 0, base := 0, log2n := 0, tail := 0, head := 0, plist := 0
    gid := 0xFFFF, refused := false, work := [], current := none, run := none, begun := 0, quantum := none }

/-- An idle site engine. -/
def SiteEngine.reset : SiteEngine := ⟨false, 0, 0⟩

/-- An empty weight slot (Table 11.1). -/
def Slot.reset : Slot := ⟨28, [], [], false⟩

/-- No stitch. -/
def Issue.none : Issue := ⟨0, 0, 0, 0, 0, .user, []⟩

/-- A plain write that was placed at its ordering point in this core cycle (R97): its precedence by Table 5.3, the space (0 DRAM,
1 + core a scratchpad), the address there and the bytes. -/
structure PlacedWrite where
  rank : Nat
  space : Nat
  at_ : Nat
  n : Nat
  deriving DecidableEq, Repr

/-- Everything the package holds. Keys: threads by (core × 64 + block slot) × 4,096 + thread index; blocks by
core × 64 + block slot; slices by core × 6 + slice; cores by global core id; sites, queues, launches and runs by number;
lines by physical address ÷ 128; poison by
physical address ÷ 16; quads by physical address ÷ 2^23: how often their contents have become unspecified (R62). -/
structure State where
  clk : Nat
  devno : Nat
  asidbase : Nat
  tvecsel : Nat
  tvec : Sparse (BitVec 56)
  placement : Sparse (Option Nat × Nat × Nat)  -- home site, first 64 KiB piece and pieces of the page (R54)
  mem : Memory
  poison : Sparse Nat
  lines : Sparse Line
  reqs : List Req
  releases : Sparse (List Release)
  fences : List (Scope × Nat × List Nat)    -- the fence order (R102): scope, thread, its writes that are still in flight
  quads : Sparse Nat
  branches : List Branch
  walks : List Walk
  threads : Sparse Thread
  ckpts : Sparse Thread
  taken : Sparse HandlerEntry                    -- by thread, the handler entries of this core cycle (R364)
  blocks : Sparse Block
  slices : Sparse Slice
  cores : Sparse Core
  sites : Sparse Site
  queues : Sparse Queue
  turns : Sparse Nat                        -- by priority, the queue served last (R288)
  launches : Sparse Launch
  graphs : Sparse (List GraphNode)
  runs : Sparse Run
  saved : List Saved
  badAreas : List Nat                       -- image areas where a save has failed (R414)
  migrations : List (Nat × Nat × Nat)
  quiltSince : Sparse Nat
  drainMax : Nat                            -- the firmware setting DRAINMAX, µs (R450)
  routes : Sparse Nat
  filter : Sparse Nat
  refusedFrom : Sparse Nat
  qps : Sparse Qp
  cycleWrites : List PlacedWrite            -- the plain writes placed in this core cycle (R97)
  out : List Msg
  measure : List (BitVec 512)
  measureLocked : Bool
  starts : Nat
  failedStarts : Nat
  failures : List (Nat × Nat × Nat)         -- the failed starts in a row: step, site and cause (R460)
  bootFailed : Bool                         -- the recovery image has not verified (R460)
  recovery : Bool
  held : Bool
  group : Option Group
  floorState : Nat
  cool : Int                                -- the coolant temperature (R304, R453), hundredths of a degree
  hemFailed : List Nat
  portsDown : List Nat
  brk : Bool
  logs : Sparse Nat
  routines : List Nat
  microcode : List (BitVec 192)             -- what the near-memory units' control stores hold (R270)
  agenda : List Instr
  issueQ : List Issue
  cur : Issue
  nextId : Nat
  fresh : Nat
  deriving DecidableEq, Repr

/-- The package right after reset: a cold start that has completed with no unit fenced (R318), every register at the
value the manual gives, and the values of logs 1 to 6, 22, 23, 61, 62 and 70 where it gives none. -/
def State.reset : State :=
  { clk := 0, devno := 0, asidbase := 0, tvecsel := 0, tvec := [], placement := [], mem := [], poison := [], lines := []
    reqs := [], releases := [], fences := [], quads := [], branches := [], walks := [], threads := [], ckpts := [], taken := [], blocks := [], slices := []
    cores := [], sites := [], queues := [], turns := [], launches := [], graphs := [], runs := [], saved := [], badAreas := []
    migrations := [], quiltSince := [], drainMax := 20, routes := [], filter := [], refusedFrom := [], qps := [], cycleWrites := [], out := []
    measure := [0], measureLocked := true, starts := 0, failedStarts := 0, failures := [], bootFailed := false, recovery := false, held := false
    group := none, floorState := 0, cool := 2500, hemFailed := [], portsDown := [], brk := false, logs := []
    routines := [], microcode := [], agenda := [], issueQ := [], cur := Issue.none, nextId := 0, fresh := 0 }

end Sys2Proof.Machine
end

