-- ==== Sys2Proof/Machine/Ops.lean ====
section
/-!
DEFINITION. The named operations over the state: its parts, registers, sticky flags, retirement, and taking and leaving
a trap.
-/
namespace Sys2Proof.Machine

/-- The result type of every meaning. -/
abbrev Out := Host.Outcome State Fault Refusal

/-! ### Parts of the state -/

/-- The key of a block. -/
def bkOf (core bslot : Nat) : Nat := core * 64 + bslot
/-- The key of a thread. -/
def tkOf (core bslot t : Nat) : Nat := bkOf core bslot * 4096 + t
/-- The block key of a thread key. -/
def tkBk (tk : Nat) : Nat := tk / 4096
/-- The global core id of a thread key. -/
def tkCore (tk : Nat) : Nat := tk / 4096 / 64
/-- The block slot of a thread key. -/
def tkSlotEntry (tk : Nat) : Nat := tk / 4096 % 64
/-- %thr of a thread key. -/
def tkThr (tk : Nat) : Nat := tk % 4096
/-- The slice of thread t (Table 2.1). -/
def sliceOfThr (t : Nat) : Nat := t / 32 % 6
/-- The lane of thread t (Table 2.1). -/
def laneOfThr (t : Nat) : Nat := t % 32

/-- A core. -/
def State.core (s : State) (c : Nat) : Core := Sparse.getD s.cores c Core.reset
/-- A site. -/
def State.site (s : State) (i : Nat) : Site := Sparse.getD s.sites i Site.reset
/-- A slice of a core. -/
def State.slice (s : State) (c sl : Nat) : Slice := Sparse.getD s.slices (c * 6 + sl) Slice.reset
/-- A queue. -/
def State.queue (s : State) (q : Nat) : Queue := Sparse.getD s.queues q Queue.reset
/-- A resident block. -/
def State.block? (s : State) (bk : Nat) : Option Block := Sparse.get? s.blocks bk
/-- A thread. -/
def State.thread? (s : State) (tk : Nat) : Option Thread := Sparse.get? s.threads tk
/-- A launch. -/
def State.launch? (s : State) (i : Nat) : Option Launch := Sparse.get? s.launches i

/-- Replaces a thread. -/
def State.setThread (s : State) (tk : Nat) (t : Thread) : State := { s with threads := Sparse.set s.threads tk t }
/-- Replaces a block. -/
def State.setBlock (s : State) (bk : Nat) (b : Block) : State := { s with blocks := Sparse.set s.blocks bk b }
/-- Replaces a core. -/
def State.setCore (s : State) (c : Nat) (x : Core) : State := { s with cores := Sparse.set s.cores c x }
/-- Replaces a site. -/
def State.setSite (s : State) (i : Nat) (x : Site) : State := { s with sites := Sparse.set s.sites i x }
/-- Replaces a slice. -/
def State.setSlice (s : State) (c sl : Nat) (x : Slice) : State := { s with slices := Sparse.set s.slices (c * 6 + sl) x }
/-- Replaces a queue. -/
def State.setQueue (s : State) (q : Nat) (x : Queue) : State := { s with queues := Sparse.set s.queues q x }
/-- Replaces a launch. -/
def State.setLaunch (s : State) (i : Nat) (x : Launch) : State := { s with launches := Sparse.set s.launches i x }

/-- Changes a thread, if it is there. -/
def State.modThread (s : State) (tk : Nat) (g : Thread → Thread) : State :=
  match s.thread? tk with
  | some t => s.setThread tk (g t)
  | none => s
/-- Changes a thread and the snapshot of its speculation, if it has one (R36). -/
def State.modSnapped (s : State) (tk : Nat) (g : Thread → Thread) : State :=
  let s1 := s.modThread tk g
  match Sparse.get? s1.ckpts tk with
  | some t => { s1 with ckpts := Sparse.set s1.ckpts tk (g t) }
  | none => s1
/-- Changes a block, if it is there. -/
def State.modBlock (s : State) (bk : Nat) (g : Block → Block) : State :=
  match s.block? bk with
  | some b => s.setBlock bk (g b)
  | none => s
/-- Changes a core. -/
def State.modCore (s : State) (c : Nat) (g : Core → Core) : State := s.setCore c (g (s.core c))
/-- Changes a site. -/
def State.modSite (s : State) (i : Nat) (g : Site → Site) : State := s.setSite i (g (s.site i))
/-- Changes a slice. -/
def State.modSlice (s : State) (c sl : Nat) (g : Slice → Slice) : State := s.setSlice c sl (g (s.slice c sl))
/-- Changes a queue. -/
def State.modQueue (s : State) (q : Nat) (g : Queue → Queue) : State := s.setQueue q (g (s.queue q))
/-- Changes a launch, if it is there. -/
def State.modLaunch (s : State) (i : Nat) (g : Launch → Launch) : State :=
  match s.launch? i with
  | some x => s.setLaunch i (g x)
  | none => s

/-- Sends a message out. -/
def State.emit (s : State) (m : Msg) : State := { s with out := s.out ++ [m] }
/-- A firmware log entry, counted by kind. -/
def State.log (s : State) (kind : Nat) : State := { s with logs := Sparse.modify s.logs kind 0 (· + 1) }
/-- A new identity for something in flight. -/
def State.bumpId (s : State) : State := { s with nextId := s.nextId + 1 }
/-- Draws a free value: the count moves on. -/
def State.bumpFresh (s : State) : State := { s with fresh := s.fresh + 1 }

/-- The cycles an event takes: the figure in deterministic mode (R44, Table 2.4), else a free value. -/
def State.cycles (s : State) (c figure : Nat) : Nat :=
  if (s.core c).det then figure else Config.latency s.fresh
/-- The cycles that a core's own clock has made: %clk less what a droop has taken (R300). Latencies count in them (R44). -/
def State.now (s : State) (c : Nat) : Nat := s.clk - (s.core c).lost
/-- The cycle of a core's own clock in which an event with a figure comes due. -/
def State.due (s : State) (c figure : Nat) : Nat := s.now c + s.cycles c figure

/-- The limits of a block's launch (R374). -/
def Block.limits (b : Block) : Limits := ⟨b.desc.regs, b.accn⟩

/-- The threads of a block that the machine holds, by key. -/
def State.threadsOf (s : State) (bk : Nat) : List (Nat × Thread) := s.threads.filter (fun c => tkBk c.1 = bk)

/-! ### Registers (R115 to R118, R125) -/

/-- v[n]. -/
def Thread.reg (t : Thread) (n : Nat) : Word := Sparse.getD t.v n 0
/-- Writes v[n]; any write of a register clears its mark (R402). -/
def Thread.setReg (t : Thread) (n : Nat) (x : Word) : Thread :=
  { t with v := Sparse.set t.v n x, marks := Sparse.erase t.marks n }
/-- Writes consecutive registers from a number, low word first (R116). -/
def Thread.setRegs (t : Thread) (d : Nat) : Nat → Nat → Thread
  | 0, _ => t
  | n + 1, x => (t.setReg d (BitVec.ofNat 32 x)).setRegs (d + 1) n (x / 2 ^ 32)
/-- p[i]; p0 reads 1 (R114). -/
def Thread.pred (t : Thread) (i : Nat) : Bool := i == 0 || t.p.getLsbD i
/-- Writes p[i]; a write to p0 is discarded (R117). -/
def Thread.setPred (t : Thread) (i : Nat) (b : Bool) : Thread :=
  if i = 0 then t
  else { t with p := (t.p &&& ~~~(1#8 <<< i)) ||| (if b then 1#8 <<< i else 0#8) }
/-- The eight predicates as bits, p0 as 1. -/
def Thread.preds (t : Thread) : BitVec 8 := t.p ||| 1#8
/-- h[i]. -/
def Thread.bank (t : Thread) (i : Nat) : Word := Sparse.getD t.h i 0

/-- A number from consecutive registers, low word first (R116). -/
def Thread.regsVal (t : Thread) (i : Nat) : Nat → Nat
  | 0 => 0
  | n + 1 => (t.reg i).toNat + 2 ^ 32 * t.regsVal (i + 1) n

/-- k[i] of a block (R72). -/
def Block.k (b : Block) (i : Nat) : Word := b.consts.getD i 0
/-- A number from consecutive constants. -/
def Block.ksVal (b : Block) (i : Nat) : Nat → Nat
  | 0 => 0
  | n + 1 => (b.k i).toNat + 2 ^ 32 * b.ksVal (i + 1) n

/-- Opnd (R145, R118): the value of a source of `n` registers. Kind 10 is h0–h7 and p0–p7 for MOV, and a predicate for
PLOP (Table 6.3). -/
def opnd (op : Op) (t : Thread) (b : Block) (f : Fields) (sf : SForm) (x : Src) : Nat :=
  match x.kind with
  | .v => t.regsVal x.idx.toNat sf.n
  | .k => b.ksVal x.idx.toNat sf.n
  | .imm => if sf.n = 1 then f.imm.toNat else (f.imm.signExtend 64).toNat
  | .alt =>
    if op = .mov then
      (if x.idx.toNat < 8 then (t.bank x.idx.toNat).toNat else bit1 (t.pred (x.idx.toNat - 8)))
    else if op = .plop then bit1 (t.pred x.idx.toNat)
    else x.idx.toNat

/-- The value of source A. -/
def opndA (op : Op) (t : Thread) (b : Block) (f : Fields) : Nat := opnd op t b f (form op b.limits f).a f.a
/-- The value of source B. -/
def opndB (op : Op) (t : Thread) (b : Block) (f : Fields) : Nat := opnd op t b f (form op b.limits f).b f.b
/-- The value of source C, always v registers named by X (R115). -/
def opndC (op : Op) (t : Thread) (b : Block) (f : Fields) : Nat :=
  match (form op b.limits f).x with
  | .reg n => t.regsVal f.x.toNat n
  | .bits _ => 0

/-- Every value that a computing instruction reads (R117). -/
def readOpnds (op : Op) (t : Thread) (b : Block) (f : Fields) : Opnds :=
  { a := opndA op t b f, b := opndB op t b f, c := opndC op t b f, preds := t.preds, old := (t.reg f.d.toNat).toNat }

/-- The guard G (R114). -/
def guardOf (t : Thread) (f : Fields) : Bool := t.pred f.gp.toNat != f.gn

/-! ### Raising flags -/

/-- An instruction of a thread raises flags, which are set in a cycle of its core (R168); on a speculative path they are held
until resolution (R34, R36). -/
def State.raiseFlags (s : State) (tk : Nat) (h : FlagHome) (w : FlagWord) (at_ : Nat) : State :=
  if w = 0 then s
  else s.modThread tk (fun t =>
    match t.spec with
    | some p => { t with spec := some { p with flags := p.flags ++ [(at_, h, w)] } }
    | none => { t with flagsDue := t.flagsDue ++ [(at_, h, w)] })

/-- Flags are set now (R79). -/
def State.landFlags (s : State) (tk : Nat) (h : FlagHome) (w : FlagWord) : State :=
  if w = 0 then s else s.modBlock (tkBk tk) (fun b => b.raise s.clk h w)

/-- The flags of a thread that are to be set in a cycle that satisfies a test are set now (R168). An empty entry stands for each to the
end of the cycle, so that the thread's own FLAGS comes after it (R197). -/
def State.setFlags (s : State) (tk : Nat) (p : Nat → Bool) : State :=
  match s.thread? tk with
  | some t =>
    (t.flagsDue.filter (fun x => p x.1)).foldl (fun s x => s.landFlags tk x.2.1 x.2.2)
      (s.setThread tk { t with flagsDue := t.flagsDue.map (fun x => if p x.1 then (s.now (tkCore tk), x.2.1, 0) else x) })
  | none => s

/-- A thread whose own flags have been set in a cycle of its core: its FLAGS comes after that cycle (R197, R253). -/
def Thread.hasSet (t : Thread) (now : Nat) (h : FlagHome) (w : FlagWord) : Thread :=
  if w = 0 then t else { t with flagsDue := t.flagsDue ++ [(now, h, 0)] }

/-- A thread without the entries of flags that were set before a cycle of its core. -/
def Thread.dropSet (t : Thread) (now : Nat) : Thread :=
  { t with flagsDue := t.flagsDue.filter (fun x => x.2.2 != 0 || decide (now ≤ x.1)) }

/-- Every thread's flags whose cycle has come are set. -/
def State.settleFlags (s : State) : State :=
  (s.threads.filter (fun c => c.2.flagsDue.any (fun x => decide (x.1 ≤ s.now (tkCore c.1))))).foldl
    (fun s c =>
      let now := s.now (tkCore c.1)
      (s.modThread c.1 (·.dropSet now)).setFlags c.1 (fun d => decide (d ≤ now))) s

/-- Whether an access in flight may still raise flags: a floating-point atomic that is not performed (R222). -/
def Req.raises (r : Req) : Bool :=
  match r.act with | .rmw op _ _ _ => decide (9 ≤ op) && r.stage != .done | _ => false

/-- Whether every earlier instruction of a thread has set its flags (R168): of class F, of the function group, SKRED, and the
floating-point atomics. -/
def State.flagsSet (s : State) (tk : Nat) (t : Thread) : Bool :=
  t.flagsDue.all (·.2.2 == 0) && !t.pends.any (fun p => p.raises || (p.ready && p.flags != 0)) &&
    !s.reqs.any (fun r => r.tk == tk && r.raises)

/-! ### Retiring (R114, R31) -/

/-- The next sequential PC (R113). -/
def pcNext (pc : BitVec 56) : BitVec 56 := pc + 12#56

/-- A thread retires an instruction and goes to `pc`: every open window has one instruction less (R31, R387), and a
speculative path one more (R34). -/
def Thread.retireTo (t : Thread) (pc : BitVec 56) : Thread :=
  { t with
    pc := pc
    wait := .none
    pends := t.pends.map (fun p => { p with left := p.left - 1 })
    spec := t.spec.map (fun p => { p with count := p.count + 1 }) }

/-- A thread retires an instruction and goes on in sequence. -/
def Thread.retire (t : Thread) : Thread := t.retireTo (pcNext t.pc)

/-- A thread starts to wait for something; the core cycle of the start is kept (R366). -/
def State.waitFor (s : State) (tk : Nat) (w : Wait) : State :=
  s.modThread tk (fun t => { t with wait := w, waitSince := if t.wait = w then t.waitSince else s.clk })

/-! ### Taking a trap (R351 to R356) -/

/-- The handler address of an ASID (R206); 0 where none is set. -/
def State.handler (s : State) (asid : Nat) : BitVec 56 := Sparse.getD s.tvec asid 0

/-- A double fault (R356): firmware receives cause 0x15 with the cause that entered the handler and the cause met inside
it, and the block stops for good. -/
def State.doubleFault (s : State) (tk : Nat) (cause : Nat) : State :=
  let entered := match s.thread? tk with | some t => t.entering | none => 0
  (s.modBlock (tkBk tk) (fun b => { b with doubleFault := true })).emit
    (.report "double fault" [tk, 0x15, entered, cause])

/-- Adds a thread to the trap skein of its issue and cycle, or begins one, whose number is the lowest that no other has (R353,
R294). -/
def Block.joinTrap (b : Block) (clk group t : Nat) : Block × Nat :=
  match b.trapSkeins.find? (fun z => z.key = (group, clk)) with
  | some z =>
    ({ b with trapSkeins := b.trapSkeins.map (fun y =>
        if y.num = z.num then
          { y with members := y.members ++ [t], phase := { y.phase with waiting := y.phase.waiting ++ [t] } } else y) },
      z.num)
  | none =>
    let used := b.trapSkeins.map (·.tag)
    let tag := ((List.range 3072).find? (fun i => !(used.contains i))).getD 0
    let n := b.trapCount
    ({ b with
      trapSkeins := b.trapSkeins ++ [⟨n, tag, (group, clk), [t], 0, { Phase.empty clk with waiting := [t] }⟩], trapCount := n + 1 }, n)

/-- The list of held traps that a handler entry takes its trap from loses its head (R359, R401). -/
def Thread.dropHeld (t : Thread) : Thread :=
  match t.delivers with
  | some true => { t with trapNext := t.trapNext.drop 1, delivers := none }
  | some false => { t with reports := t.reports.drop 1, delivers := none }
  | none => t

/-- Handler entry (R351), with every window closed: TPC is `tpc`. Without a handler the registers are written all the same, and the
double fault has met no cause inside (R356). What the entry replaced is kept for the rest of the cycle (R364). -/
def State.enterHandler (s : State) (tk : Nat) (i : TrapInfo) (group : Nat) (tpc : BitVec 56) : State :=
  match s.thread? tk, s.block? (tkBk tk) with
  | some t, some b =>
    let t1 : Thread := { t.dropHeld with
      tpc := tpc.setWidth 64, tcause := BitVec.ofNat 64 i.cause, tval := BitVec.ofNat 64 i.tval
      tinfo := BitVec.ofNat 64 i.tinfo, h := [], mode := .trap, wait := .none, pendTrap := none, pendFault := none
      walkFail := none, entering := i.cause }
    if s.handler b.asid = 0 then (s.setThread tk t1).doubleFault tk 0
    else
      let (b1, n) := b.joinTrap s.clk group (tkThr tk)
      let was : HandlerEntry :=
        ⟨i, t.pc, t.tpc, t.tcause, t.tval, t.tinfo, t.h, t.entering, t.trapNext, t.reports, t.delivers, t.pcTop⟩
      { s with taken := Sparse.set s.taken tk was }.setBlock (tkBk tk) b1
        |>.setThread tk { t1 with pc := s.handler b.asid, pcTop := 0, trapSkein := some n }
  | _, _ => s

/-- Taking a trap (R351): on a speculative path held until resolution (R34); in trap mode a double fault (R356); while a
lookahead window is open it waits for the window to close; else the handler is entered. `retires` moves TPC past
the instruction. -/
def State.takeTrap (s : State) (tk : Nat) (i : TrapInfo) (group : Nat) (retires : Bool) : State :=
  match s.thread? tk with
  | none => s
  | some t =>
    match t.spec with
    | some p => s.setThread tk { t with spec := some { p with trap := some (i, group) }, wait := .specEnd, waitSince := s.clk }
    | none =>
      if t.mode = .trap then s.doubleFault tk i.cause
      else if t.pends = [] then s.enterHandler tk i group (if retires then pcNext t.pc else t.pc)
      else s.setThread tk { t with pendTrap := some (i, group, retires), wait := .closing, waitSince := s.clk }

/-- After a window has closed: a trap that waited for it is taken when no window is left (R351); in a block that is being halted or
pre-empted it stays pending (R364). -/
def State.settleTrap (s : State) (tk : Nat) : State :=
  match s.thread? tk, s.block? (tkBk tk) with
  | some t, some b =>
    match t.pendTrap with
    | some (i, g, r) =>
      if t.pends = [] ∧ !b.stopping ∧ !b.halted then s.enterHandler tk i g (if r then pcNext t.pc else t.pc) else s
    | none => s
  | _, _ => s

/-- A phase without a thread: it is expected no more, and its arrival is gone. -/
def Phase.without (p : Phase) (t : Nat) : Phase :=
  { p with waiting := p.waiting.filter (· != t), arrived := p.arrived.filter (fun a => a.t != t) }

/-- A member leaves its trap skein (R353): the phase no longer expects it, and an empty trap skein is dissolved. -/
def Block.leaveTrap (b : Block) (n t : Nat) : Block :=
  let zs := b.trapSkeins.map (fun z =>
    if z.num = n then { z with members := z.members.filter (· != t), phase := z.phase.without t } else z)
  { b with trapSkeins := zs.filter (fun z => z.members != []) }

/-- A trap taken in this very cycle is pending again, as a halt or an expiry of the cycle finds it (R364). -/
def State.untake (s : State) (tk : Nat) : State :=
  match Sparse.get? s.taken tk, s.thread? tk with
  | some x, some t =>
    if t.mode = .user then s
    else
      let s1 := match t.trapSkein with
        | some n => s.modBlock (tkBk tk) (fun b => b.leaveTrap n (tkThr tk))
        | none => s
      { s1 with taken := Sparse.erase s1.taken tk }.setThread tk { t with
        pc := x.pc, tpc := x.tpc, tcause := x.tcause, tval := x.tval, tinfo := x.tinfo, h := x.h, mode := .user
        entering := x.entering, trapNext := x.trapNext, reports := x.reports, delivers := x.delivers, trapSkein := none, pcTop := x.pcTop
        pendFault := some x.info }
  | _, _ => s

/-- The return from the handler (R203, R354): PC := TPC, TCAUSE := 0, user mode, and the trap skein is left. -/
def State.trapReturn (s : State) (tk : Nat) : State :=
  match s.thread? tk, s.block? (tkBk tk) with
  | some t, some b =>
    let b1 := match t.trapSkein with | some n => b.leaveTrap n (tkThr tk) | none => b
    (s.setBlock (tkBk tk) b1).setThread tk
      { t.retireTo (t.tpc.setWidth 56) with tcause := 0, mode := .user, h := [], trapSkein := none, pcTop := 0 }
  | _, _ => s

/-! ### Rejections (R370 to R385) -/

/-- TINFO of cause 0x01 (Table 22.1). -/
def rejectInfo (opc field sub val : Nat) : TrapInfo := ⟨0x01, val, opc * 256 + field * 16 + sub⟩

/-- What the word, the mode and the launch's limits make of an instruction (R372): none when it may execute. -/
def rejection (op : Op) (opc : Nat) (t : Thread) (b : Block) (f : Fields) : Option TrapInfo :=
  let banked := match trapModeUse op f with
    | some (field, val) => if t.mode = .user then some (rejectInfo opc field 8 val) else none
    | none => none
  if privileged op f && t.mode == .user && b.asid != 0 then some ⟨0x02, opc, 0⟩
  else match banked with
  | some i => some i
  | none =>
    match wordReject op b.limits f with
    | some (sub, field) => some (rejectInfo opc field sub (fieldVal opc f field))
    | none => none

/-- TINFO of a memory cause (Table 23.1). -/
def memInfo (sub opc : Nat) (w : Bool) (space : Nat) (split : Bool) (sz : Nat) : Nat :=
  sub * 2 ^ 16 + opc * 256 + bit1 w * 128 + space * 16 + bit1 split * 8 + sz

/-- The fetch fault of an address that RET brought with bits [63:56] set (R46, R190): TVAL is the whole address. -/
def topFault (t : Thread) : TrapInfo := ⟨0x04, t.pcTop * 2 ^ 56 + t.pc.toNat, memInfo 6 0 false 5 false 0⟩

/-- A marked register among the sources (R402, Table 23.1): the lowest in reading order. -/
def markTrap (op : Op) (opc : Nat) (t : Thread) (b : Block) (f : Fields) : Option TrapInfo :=
  ((regsRead op b.limits f).find? (fun r => (Sparse.get? t.marks r).isSome)).map (fun r =>
    let m := Sparse.getD t.marks r ⟨0x14, 0⟩
    ⟨m.cause, 2 ^ 63 + r, m.sub * 65536 + opc * 256⟩)

/-! ### One thread's part of an issued instruction -/

/-- Whether a thread has issued its instruction and waits to complete it, so that completing it is no second issue (R199,
R201, R202, R204, R227, R229, R239). -/
def Thread.issuedWait (t : Thread) : Bool :=
  match t.wait with
  | .bwait .. | .seam .. | .stwait _ | .fence _ | .operand | .marker | .refill | .effect .. | .matrixRoom _ | .serial | .access
  | .flags => true
  | _ => false

/-- A trap that waits before the thread's next instruction: a pending fault after a resume (R364), a trap of a barrier
phase (R358, R359), or a deferred report (R401). On a speculative path it waits for resolution; an instruction that has issued and is
still to complete is not the next one. -/
def nextTrap (t : Thread) : Option TrapInfo :=
  if t.spec.isSome || t.mode == .trap || t.issuedWait then none
  else match t.pendFault, t.trapNext, t.reports with
  | some i, _, _ => some i
  | none, x :: _, _ => some x
  | none, [], r :: _ => some ⟨r.cause, r.tval, r.tinfo⟩
  | none, [], [] => none

/-- Takes the trap of `nextTrap`; the handler's entry drops what caused it. -/
def State.deliverNext (s : State) (tk : Nat) (t : Thread) (x : TrapInfo) : State :=
  (s.setThread tk { t with delivers := if t.pendFault.isSome then t.delivers else some (t.trapNext != []) }).takeTrap tk x
    s.cur.id false

/-- One member of the issuing stitch: held traps and reports first, then speculation (R34; `holds` says whether the
instruction waits for resolution), the guard (R114), the trap that the word or its sources give (`bad`), and at last the
instruction's own effect `body`. -/
def issueMember (holds : Bool) (f : Fields) (bad : Thread → Block → Option TrapInfo)
    (body : Nat → Thread → Block → State → State) (s : State) (tk : Nat) : State :=
  match s.thread? tk, s.block? (tkBk tk) with
  | some t, some b =>
    if t.exited then s
    else match nextTrap t with
    | some x => s.deliverNext tk t x
    | none =>
      if t.spec.isSome && (holds || t.trapNext != [] || decide ((t.spec.map (·.count)).getD 0 ≥ 8)) then s.waitFor tk .specEnd
      else if t.pcTop ≠ 0 then s.takeTrap tk (topFault t) s.cur.id false
      else if !guardOf t f then s.setThread tk t.retire
      else match bad t b with
      | some i => s.takeTrap tk i s.cur.id false
      | none => body tk t b s
  | _, _ => s

/-- The trap of an instruction before its own effect: a rejection (R370), or a marked register (R402). -/
def wordTrap (op : Op) (f : Fields) (t : Thread) (b : Block) : Option TrapInfo :=
  match rejection op op.code.toNat t b f with
  | some i => some i
  | none => markTrap op op.code.toNat t b f

/-- One member of the issuing stitch for an assigned opcode. -/
def issueThread (op : Op) (f : Fields) (body : Nat → Thread → Block → State → State) (s : State) (tk : Nat) : State :=
  issueMember (waitsResolution op f) f (wordTrap op f) body s tk

/-- The instruction issued for every member of the stitch, in ascending lane order. -/
def issueAll (op : Op) (f : Fields) (body : Nat → Thread → Block → State → State) (s : State) : State :=
  s.cur.members.foldl (issueThread op f body) s

/-! ### Instructions that only compute -/

/-- Writes what a computing instruction delivers (R117, R145): the registers or the predicate that D names. -/
def Thread.deliver (t : Thread) (op : Op) (lim : Limits) (f : Fields) (o : RegOut) : Thread :=
  let t1 := match o.val, (form op lim f).d with
    | some x, .reg n => t.setRegs f.d.toNat n x
    | _, _ => t
  let t2 := match o.pred with
    | some x => t1.setPred (f.d.toNat % 8) x
    | none => t1
  match o.bank with
  | some x => { t2 with h := Sparse.set t2.h (f.d.toNat % 8) (BitVec.ofNat 32 x) }
  | none => t2

/-- The predicate whose value an instruction changes: a write of p0 is discarded and is nothing to wait for (R117). -/
def predResult (op : Op) (lim : Limits) (f : Fields) : Option Nat := (predWritten op lim f).filter (· != 0)

/-- When a result is written, and so ready for a dependent instruction (R32, Table 2.4). A window that the instruction stands
in notes it for the registers that both write (R31). -/
def Thread.readyFrom (t : Thread) (op : Op) (lim : Limits) (f : Fields) (at_ : Nat) : Thread :=
  let ws := regsWritten op lim f
  let wp := predResult op lim f
  { t with
    readyAt := ws.foldl (fun m r => Sparse.set m r at_) t.readyAt
    predAt := match wp with | some i => Sparse.set t.predAt i at_ | none => t.predAt
    bankAt := match bankWritten op f with | some i => Sparse.set t.bankAt i at_ | none => t.bankAt
    pends := t.pends.map (fun p =>
      { p with
        overAt := (ws.filter p.regs.contains).foldl (fun m r => Sparse.set m r at_) p.overAt
        predOver := if wp.isSome && p.pred == wp then at_ else p.predOver }) }

/-- The effect of an interlocked computing instruction on one thread: it retires with its results, and its flags are set in
the cycle in which they are written (R168). -/
def computeBody (op : Op) (figure : Nat) (f : Fields) (g : Opnds → RegOut) (tk : Nat) (t : Thread) (b : Block)
    (s : State) : State :=
  let o := g (readOpnds op t b f)
  let at_ := s.due (tkCore tk) figure
  let t1 := ((t.retire).deliver op b.limits f o).readyFrom op b.limits f at_
  ((s.setThread tk t1).raiseFlags tk (flagHome t) o.flags at_).bumpFresh

/-- Class A and F instructions that only compute (R144, R168). -/
def execCompute (op : Op) (figure : Nat) (f : Fields) (g : Opnds → RegOut) (s : State) : Out :=
  .next (issueAll op f (computeBody op figure f g) s)

/-- The destination registers of an instruction. -/
def destRegs (op : Op) (lim : Limits) (f : Fields) : List Nat := regsWritten op lim f

/-- The values of consecutive destination registers from a number. -/
def destVals : List Nat → Nat → Sparse Word
  | [], _ => []
  | r :: rs, x => Sparse.set (destVals rs (x / 2 ^ 32)) r (BitVec.ofNat 32 x)

/-- A lookahead window whose result is known and lands later (R31, R168). -/
def knownPend (op : Op) (lim : Limits) (f : Fields) (id val due : Nat) (w : FlagWord) (h : FlagHome) : Pend :=
  { id := id, op := op, left := f.la.toNat, kind := .func, regs := destRegs op lim f, pred := none, buf := [], need := 0, acq := false
    vals := destVals (destRegs op lim f) val, pval := false, ready := true, mark := none, flags := w, home := h, due := due, overAt := [] }

/-- Opens a window on a thread that has retired its instruction. -/
def Thread.openPend (t : Thread) (p : Pend) : Thread := { t with pends := t.pends ++ [p] }

/-- A function-group instruction on one thread: it retires and opens its window (R168, R178). -/
def funcBody (op : Op) (f : Fields) (g : Opnds → RegOut) (tk : Nat) (t : Thread) (b : Block) (s : State) : State :=
  let o := g (readOpnds op t b f)
  let p := knownPend op b.limits f s.nextId (o.val.getD 0) (s.due (tkCore tk) 24) o.flags (flagHome t)
  ((s.setThread tk (t.retire.openPend p)).bumpId).bumpFresh

/-- The function group (R178). -/
def execFunc (op : Op) (f : Fields) (g : Opnds → RegOut) (s : State) : Out :=
  .next (issueAll op f (funcBody op f g) s)

end Sys2Proof.Machine
end

