-- ==== Sys2Proof/Machine/Topology.lean ====
section
/-!
DEFINITION. Where the units of a site stand on its meshes and the sites and edge dies on the Hem (R10 to R16): the routers,
the path of a flit, the route of a transfer, and how a failed link or segment changes them (R408, R409).
-/
namespace Sys2Proof.Machine

/-! ### The meshes (R10 to R12) -/

/-- A router of a 4 × 4 mesh. -/
structure Router where
  x : Nat
  y : Nat
  deriving DecidableEq, Repr

/-- The router of an L2 slice (R10): slice 4v + i. -/
def sliceRouter (sl : Nat) : Router :=
  let v := sl / 4 % 4
  let i := sl % 4
  ⟨2 * (v % 2) + i % 2, 2 * (v / 2) + i / 2⟩

/-- What is attached to a mesh of a site (Table 1.2); a core stands for its matrix unit and copy engines too, a vault for its
near-memory unit. -/
inductive MeshUnit where
  | core (v : Nat)
  | slice (i : Nat)
  | vault (v : Nat)
  | att
  | controller
  | hemCcw
  | hemCw
  deriving DecidableEq, Repr

/-- The router at which a unit is attached (Table 1.2). -/
def MeshUnit.router : MeshUnit → Router
  | .core v => sliceRouter (4 * v)
  | .slice i => sliceRouter i
  | .vault v => sliceRouter (4 * v + 3)
  | .att => ⟨1, 2⟩
  | .controller => ⟨2, 1⟩
  | .hemCcw => ⟨0, 3⟩
  | .hemCw => ⟨3, 3⟩

/-- The links of a mesh, by number (log 58): 3y + x between (x, y) and (x + 1, y), 12 + 3x + y between (x, y) and (x, y + 1). -/
def linksPerMesh : Nat := 24

/-- The links along a row between two columns. -/
def rowLinks (y a b : Nat) : List Nat := (List.range (max a b - min a b)).map (fun i => 3 * y + min a b + i)
/-- The links along a column between two rows. -/
def columnLinks (x a b : Nat) : List Nat := (List.range (max a b - min a b)).map (fun i => 12 + 3 * x + min a b + i)

/-- The links that a flit crosses in dimension order (R11): along x first, then along y. -/
def xFirst (a b : Router) : List Nat := rowLinks a.y a.x b.x ++ columnLinks b.x a.y b.y
/-- The links of the way round a failed link (R409): along y first, then along x. -/
def yFirst (a b : Router) : List Nat := columnLinks a.x a.y b.y ++ rowLinks b.y a.x b.x

/-- The links that a flit of a mesh of a site crosses between two units (R11, R409). -/
def Site.meshPath (s : Site) (mesh : Nat) (a b : MeshUnit) : List Nat :=
  let p := xFirst a.router b.router
  if p.any (fun l => s.linkFailed.contains (mesh, l)) then yFirst a.router b.router else p

/-! ### The Hem (R13 to R16) -/

/-- The two directions of the ring. -/
inductive Turn where
  | cw
  | ccw
  deriving DecidableEq, Repr

/-- The route of Table 1.3 from a site to a site: direction and hops; none on the site itself. -/
def hemRoute (a b : Nat) : Option (Turn × Nat) :=
  let d := (b + 16 - a % 16) % 16
  if d = 0 then none else if d ≤ 8 then some (.cw, d) else some (.ccw, 16 - d)

/-- The segments that a route crosses: segment i lies between sites i and i + 1. -/
def hemSegments (a : Nat) : Turn × Nat → List Nat
  | (.cw, n) => (List.range n).map (fun i => (a + i) % 16)
  | (.ccw, n) => (List.range n).map (fun i => (a + 15 - i) % 16)

/-- The route in use (R13, R408): the other way round the ring where Table 1.3 names a fenced segment. -/
def State.hemPath (s : State) (a b : Nat) : Option (Turn × Nat) :=
  match hemRoute a b with
  | none => none
  | some r =>
    if (hemSegments a r).any s.hemFailed.contains then
      some (match r with | (.cw, n) => (.ccw, 16 - n) | (.ccw, n) => (.cw, 16 - n))
    else some r

/-- The site that an edge die counts as lying on (R15): E0 15, E1 7. -/
def edgeSite (die : Nat) : Nat := if die = 0 then 15 else 7
/-- The edge die of a scale-up port (Table 1.4a). -/
def scaleUpDie (port : Nat) : Nat := if port < 9 then 0 else 1
/-- The edge die of a scale-out port, numbered 0 to 3 (Table 1.4a). -/
def scaleOutDie (port : Nat) : Nat := if port < 2 then 0 else 1
/-- The edge die of a control port (Table 1.4a). -/
def controlDie (port : Nat) : Nat := if port = 0 then 0 else 1

/-- The unit of its site at which a transfer towards another site enters the Hem; towards the die that lies at the site itself,
the clockwise port (R15). -/
def hemPort (r : Option (Turn × Nat)) : MeshUnit := match r with | some (.ccw, _) => .hemCcw | _ => .hemCw

/-- The core cycles that the hops of a route add, 10 ns each at 2.1 GHz (R14). -/
def hopCycles (r : Option (Turn × Nat)) : Nat := match r with | some (_, n) => 21 * n | none => 0

end Sys2Proof.Machine
end

