-- ==== Sys2Proof/Machine/PhysMem.lean ====
section
/-!
DEFINITION. Physical memory: the fields of a physical address (R47), frames and home slices (R55 to R59), L2 lines (R63),
poison (R404), staleness marks (R245) and replication (R65, R66), as the bytes that an access at its ordering point reads
and writes.
-/
namespace Sys2Proof.Machine

/-- DEV (Table 3.2). -/
def paDev (pa : Nat) : Nat := pa / 2 ^ 42 % 1024
/-- SPACE (Table 3.2). -/
def paSpace (pa : Nat) : Nat := pa / 2 ^ 40 % 4
/-- SITE (Table 3.2). -/
def paSite (pa : Nat) : Nat := pa / 2 ^ 36 % 16
/-- OFS (Table 3.2). -/
def paOfs (pa : Nat) : Nat := pa % 2 ^ 36
/-- A physical address of DRAM or, with `space` 1, of device registers. -/
def paOf (dev space site ofs : Nat) : Nat := dev * 2 ^ 42 + space * 2 ^ 40 + site * 2 ^ 36 + ofs % 2 ^ 36

/-- DRAM of this device (R48). -/
def State.ownDram (s : State) (pa : Nat) : Bool := paDev pa == s.devno && paSpace pa == 0

/-! ### Frames and slices (R55 to R59) -/

/-- Frame index F = OFS[35:21]. -/
def frameOf (ofs : Nat) : Nat := ofs / 2 ^ 21 % 2 ^ 15
/-- MODE of a frame (Table 3.6). -/
def Site.frameMode (x : Site) (F : Nat) : Nat := (Sparse.getD x.modes F 0).toNat / 4
/-- SEL of a frame (Table 3.6). -/
def Site.frameSel (x : Site) (F : Nat) : Nat := (Sparse.getD x.modes F 0).toNat % 4
/-- Whether a quad keeps R56: all four frames interleaved, or all vault-local with four different vaults. -/
def Site.quadOk (x : Site) (F : Nat) : Bool :=
  let fs := (List.range 4).map (F / 4 * 4 + ·)
  fs.all (fun i => x.frameMode i == 0) ||
    (fs.all (fun i => x.frameMode i == 1) && decide ((fs.map x.frameSel).Nodup))
/-- The vault of a byte (R56). -/
def Site.vaultOf (x : Site) (ofs : Nat) : Nat :=
  if x.frameMode (frameOf ofs) = 1 then x.frameSel (frameOf ofs) else ofs / 2 ^ 7 % 4
/-- The address of a byte within its vault (R56). -/
def Site.vaultAddr (x : Site) (ofs : Nat) : Nat :=
  let g := ofs / 2 ^ 23
  if x.frameMode (frameOf ofs) = 1 then g * 0x200000 + ofs % 2 ^ 21
  else g * 0x200000 + ofs / 2 ^ 21 % 4 * 0x80000 + ofs / 2 ^ 9 % 2 ^ 12 * 128 + ofs % 2 ^ 7
/-- The interleave domain whose GEN a request to this line carries (R60): domain 0 for a vault-local line. -/
def Site.domainOf (x : Site) (ofs : Nat) : Nat :=
  if x.frameMode (frameOf ofs) = 1 then 0 else x.frameSel (frameOf ofs) % 2

/-- NthSetBit (R59): the index of the set bit that has exactly k set bits below it. -/
def nthSetBit (m : BitVec 16) (k : Nat) : Nat :=
  ((List.range 16).find? (fun i => m.getLsbD i && ((List.range i).filter m.getLsbD).length == k)).getD 0
/-- PopCount of a slice mask. -/
def popCount16 (m : BitVec 16) : Nat := ((List.range 16).filter m.getLsbD).length

/-- The fold of R59 over eight nibbles. -/
def foldNibbles (x : Nat) : Nat := (List.range 8).foldl (fun h i => h ^^^ (x / 16 ^ i % 16)) 0

/-- The slice that R57 and R59 name for a line. -/
def Site.namedSlice (x : Site) (ofs : Nat) : Nat :=
  let F := frameOf ofs
  if x.frameMode F = 1 then 4 * x.frameSel F + ofs / 2 ^ 7 % 4
  else
    let (sm, fm) := if x.frameSel F = 1 then (x.smask1, x.fmask1) else (x.smask0, x.fmask0)
    nthSetBit sm (foldNibbles ((ofs / 2 ^ 7) &&& fm.toNat) % popCount16 sm)

/-- The slice that serves the lines of a named slice: itself, or its partner when it is fenced (R413). -/
def Site.servingSlice (x : Site) (i : Nat) : Nat :=
  if !x.sliceFenced.getLsbD i then i
  else if !x.sliceFenced.getLsbD (i ^^^ 1) then i ^^^ 1
  else i ^^^ 2

/-- The serving slice of a line of this device, as a global slice number. -/
def State.sliceOfPa (s : State) (pa : Nat) : Nat :=
  let x := s.site (paSite pa)
  paSite pa * 16 + x.servingSlice (x.namedSlice (paOfs pa))

/-- GEN of a domain of a site (R60). -/
def Site.gen (x : Site) (domain : Nat) : Nat := if domain = 1 then x.gen1 else x.gen0
/-- The domain that routes a request to a line (R60). -/
def State.domainOfPa (s : State) (pa : Nat) : Nat := (s.site (paSite pa)).domainOf (paOfs pa)
/-- GEN that a request to a line carries (R60). -/
def State.genOfPa (s : State) (pa : Nat) : Nat :=
  let x := s.site (paSite pa); x.gen (x.domainOf (paOfs pa))

/-- The byte that an access reaches: its own, or an unspecified one of its quad while the quad breaks R56 (R412). -/
def State.effPa (s : State) (pa : Nat) : Nat :=
  if s.ownDram pa && !(s.site (paSite pa)).quadOk (frameOf (paOfs pa)) then
    pa / 2 ^ 23 * 2 ^ 23 + Config.tornByte s.fresh pa % 2 ^ 23
  else pa

/-! ### DRAM -/

/-- What a DRAM byte is masked with: 0, or the unspecified contents that a mode change left in its quad (R62). -/
def State.quadMask (s : State) (pa : Nat) : Byte :=
  match Sparse.getD s.quads (pa / 2 ^ 23) 0 with
  | 0 => 0
  | e => Config.quadByte e pa
/-- A byte of DRAM. -/
def State.dramByte (s : State) (pa : Nat) : Byte := Memory.read s.mem pa ^^^ s.quadMask pa
/-- Writes a byte of DRAM. -/
def State.setDramByte (s : State) (pa : Nat) (b : Byte) : State :=
  { s with mem := Memory.write s.mem pa (b ^^^ s.quadMask pa) }
/-- Writes bytes of DRAM upward from an address. -/
def State.setDram (s : State) (pa : Nat) : List Byte → State
  | [] => s
  | b :: r => (s.setDramByte pa b).setDram (pa + 1) r

/-! ### L2 lines (R63) -/

/-- A number's byte at an index. -/
def byteAt (x i : Nat) : Byte := BitVec.ofNat 8 (x / 256 ^ i)
/-- A byte of a line. -/
def Line.byte (l : Line) (i : Nat) : Byte := byteAt l.data.toNat i
/-- The bytes of a line. -/
def Line.bytes (l : Line) : List Byte := (List.range 128).map l.byte
/-- A line with bytes written from an offset. -/
def Line.write (l : Line) (i : Nat) (bs : List Byte) : Line :=
  let all := l.bytes
  { l with data := BitVec.ofNat 1024 (leNat (all.take i ++ bs ++ all.drop (i + bs.length))), dirty := true }

/-- Whether two channels of the vault's bytes are gone (R415). -/
def State.vaultLost (s : State) (pa : Nat) : Bool :=
  s.ownDram pa && (s.site (paSite pa)).vaultFenced.getLsbD ((s.site (paSite pa)).vaultOf (paOfs pa))

/-- Writes a line to DRAM if it is dirty, with its poison; the line stays, clean (R73). -/
def State.writeBack (s : State) (ln : Nat) : State :=
  match Sparse.get? s.lines ln with
  | some l =>
    if l.dirty then
      let s1 := if s.vaultLost (ln * 128) then s else s.setDram (ln * 128) l.bytes
      let p := (s1.poison.filter (fun c => c.1 / 8 != ln))
      { s1 with
        lines := Sparse.set s1.lines ln { l with dirty := false }
        poison := l.poison.foldl (fun m c => Sparse.set m c.1 c.2) p }
    else s
  | none => s
/-- Drops a line; dirty data in it is lost (R73). -/
def State.dropLine (s : State) (ln : Nat) : State := { s with lines := Sparse.erase s.lines ln }
/-- Evicts a line: its copies first, then write-back, then the drop (R63, R66). -/
def State.evictLine (s : State) (ln : Nat) : State := (s.writeBack ln).dropLine ln

/-- The lines of a slice that share the set of a line (R63). -/
def State.setLines (s : State) (sl ln : Nat) : List Nat :=
  let here := (s.lines.filter (fun c => c.2.slice = sl)).map (·.1)
  if here.length < 16 then []
  else here.filter (fun k => Config.l2Set sl k % 1024 = Config.l2Set sl ln % 1024)

/-- Makes room in the set of a line that is about to be allocated (R63): the choice of victim is unspecified. -/
def State.makeRoom (s : State) (sl ln : Nat) : State :=
  let same := s.setLines sl ln
  if same.length < 16 then s
  else (s.evictLine (same.getD (Config.l2Victim s.fresh % same.length) 0)).bumpFresh

/-- Brings a line of this device's DRAM into its home slice (R63). -/
def State.fillLine (s : State) (ln : Nat) : State :=
  match Sparse.get? s.lines ln with
  | some _ => s
  | none =>
    let sl := s.sliceOfPa (ln * 128)
    let s1 := s.makeRoom sl ln
    let bytes := (Memory.readRun s1.mem (ln * 128) 128).zipIdx.map (fun x => x.1 ^^^ s1.quadMask (ln * 128 + x.2))
    let l : Line :=
      { data := BitVec.ofNat 1024 (leNat bytes), dirty := false, poison := s1.poison.filter (fun c => c.1 / 8 = ln)
        sharers := 0, copies := [], slice := sl }
    { s1 with lines := Sparse.set s1.lines ln l }

/-- A byte as its home slice holds it. -/
def State.homeByte (s : State) (pa : Nat) : Byte :=
  match Sparse.get? s.lines (pa / 128) with
  | some l => if s.ownDram pa then l.byte (pa % 128) else s.dramByte pa
  | none => s.dramByte pa
/-- Bytes as their home slices hold them. -/
def State.homeBytes (s : State) (pa n : Nat) : List Byte := (List.range n).map (fun i => s.homeByte (pa + i))

/-- Poison of the granule of a byte, with its ORIGIN: a fenced vault reads as poison with ORIGIN 6 (R415). -/
def State.poisonOf (s : State) (pa : Nat) : Option Nat :=
  if s.vaultLost pa then some 6
  else match Sparse.get? s.lines (pa / 128) with
    | some l => Sparse.get? l.poison (pa / 16)
    | none => Sparse.get? s.poison (pa / 16)
/-- The first poison among bytes. -/
def State.poisonIn (s : State) (pa n : Nat) : Option Nat :=
  ((List.range n).filterMap (fun i => s.poisonOf (pa + i))).head?

/-! ### Staleness (R244, R245) -/

/-- A stale mark (R245): whatever state but EVICTED; a revoked entry has no source bits. -/
def Residency.mark (r : Residency) (gran : Nat) : Residency :=
  if r.live && r.granules.contains gran && r.state != .evicted then { r with state := .stale, since := 0 } else r
/-- Marks every residency of the package sourced from a granule. -/
def State.staleMark (s : State) (pa : Nat) : State :=
  { s with cores := Sparse.mapVals s.cores (fun _ c => { c with dir := c.dir.map (·.mark (pa / 65536)) }) }

/-! ### Replication (R65, R66) -/

/-- Saturating count of 16 bits. -/
def sat16 (x : Nat) : Nat := min (x + 1) 0xFFFF
/-- Counts an access from another site of the package (R65). -/
def State.countRemote (s : State) (pa from_ : Nat) (write : Bool) : State :=
  if from_ = paSite pa then s
  else s.modSite (paSite pa) (fun x =>
    let F := frameOf (paOfs pa)
    if write then { x with writes := Sparse.modify x.writes F 0 sat16 }
    else { x with reads := Sparse.modify x.reads F 0 sat16 })
/-- A frame is reached through an uncached page (R65; log 60). -/
def State.noteUncached (s : State) (pa : Nat) (uncached : Bool) : State :=
  let F := frameOf (paOfs pa)
  if !uncached || (s.site (paSite pa)).uncachedIn.contains F then s
  else s.modSite (paSite pa) (fun x => { x with uncachedIn := x.uncachedIn ++ [F] })

/-- A line with its copy on a site gone. -/
def Line.without (l : Line) (site : Nat) : Line :=
  { l with sharers := l.sharers &&& ~~~(1#16 <<< site), copies := Sparse.erase l.copies site }
/-- A line with no copies. -/
def Line.alone (l : Line) : Line := { l with sharers := 0, copies := [] }

/-- The slice in which a site keeps its copy of a line (R66): in the quadrant of the reader's router (R10). A reader is given as
4 × site + quadrant, for a thread its global core id. -/
def copySlice (reader pa : Nat) : Nat := 4 * (reader % 4) + paOfs pa / 2 ^ 7 % 4

/-- A read from another site leaves a copy while the frame is replicated (R66): the sharer bit, and the slice. A fenced slice
holds no copies (R410). R66 says may: the model always leaves one otherwise (log 47). -/
def State.leaveCopy (s : State) (pa reader : Nat) : State :=
  let x := s.site (paSite pa)
  let here := reader / 4
  if here ≠ paSite pa && x.replicated.contains (frameOf (paOfs pa)) && !(s.site here).sliceFenced.getLsbD (copySlice reader pa) then
    match Sparse.get? s.lines (pa / 128) with
    | some l =>
      let l1 := { l with sharers := l.sharers ||| (1#16 <<< here), copies := Sparse.set l.copies here (copySlice reader pa) }
      { s with lines := Sparse.set s.lines (pa / 128) l1 }
    | none => s
  else s

/-! ### Reachability -/

/-- Whether two sites are cut off from each other by fenced Hem segments (R408): both ways round the ring cross one. -/
def State.cutOff (s : State) (a b : Nat) : Bool :=
  let d := (b + 16 - a % 16) % 16
  d != 0 && (hemSegments a (.cw, d)).any s.hemFailed.contains && (hemSegments a (.ccw, 16 - d)).any s.hemFailed.contains

/-- Where on the Hem an access leaves it: the site of its address, or the edge die of the port to its device (R15, R314). -/
def State.hemGoal (s : State) (pa : Nat) : Nat :=
  if paDev pa = s.devno then paSite pa else edgeSite (scaleUpDie (Sparse.getD s.routes (paDev pa) 0))

/-- ORIGIN with which an access is answered as poison although its data may be whole: a port that stopped answering (R405), or a
Hem partition that cuts off its site, or the edge die of its port (R15, R408). -/
def State.unreachable (s : State) (from_ pa : Nat) : Option Nat :=
  if paDev pa ≠ s.devno ∧ s.portsDown.contains (Sparse.getD s.routes (paDev pa) 0) then some 5
  else if s.cutOff from_ (s.hemGoal pa) then some 7 else none

/-! ### Accesses at their ordering point -/

/-- Removes or keeps poison of the granules that a write of `n` bytes covers whole (R404). -/
def clearPoison (m : Sparse Nat) (pa n : Nat) : Sparse Nat :=
  m.filter (fun c => !(decide (pa ≤ c.1 * 16 ∧ c.1 * 16 + 16 ≤ pa + n)))

/-- Bytes of one line are placed: in the line, which is allocated unless the page is uncached, with its copies invalidated; `pa` is the
address of the access and `p` the one that it reaches (R412). -/
def State.placeBytes (s : State) (pa p : Nat) (bs : List Byte) (uncached : Bool) : State :=
  let s2 := if uncached then s else s.fillLine (p / 128)
  match Sparse.get? s2.lines (p / 128) with
  | some l =>
    { s2 with
      lines := Sparse.set s2.lines (p / 128)
        { (l.write (p % 128) bs).alone with poison := clearPoison l.poison pa bs.length } }
  | none =>
    let s3 := s2.setDram p bs
    { s3 with poison := clearPoison s3.poison pa bs.length }

/-- Writes at most 128 bytes within one line at the home slice (R63 to R66, R404, R415): copies are invalidated, the line is
allocated unless the page is uncached, and residencies sourced from the granule become STALE. In a quad that breaks R56 each byte
reaches a byte of the quad (R412). -/
def State.writeHome (s : State) (pa : Nat) (bs : List Byte) (uncached : Bool) (from_ : Nat) : State :=
  if bs = [] then s
  else if !s.ownDram pa then
    let s1 := s.setDram pa bs
    { s1 with poison := clearPoison s1.poison pa bs.length }
  else if s.vaultLost pa then s
  else
    let s1 := ((s.countRemote pa from_ true).noteUncached pa uncached).staleMark pa
    if (s.site (paSite pa)).quadOk (frameOf (paOfs pa)) then s1.placeBytes pa pa bs uncached
    else bs.zipIdx.foldl (fun s x => s.placeBytes (pa + x.2) (s.effPa (pa + x.2)) [x.1] uncached) s1

/-- Poisons granules at their home (R432). -/
def State.poisonHome (s : State) (pa n origin : Nat) : State :=
  let gs := (List.range ((pa + n + 15) / 16 - pa / 16)).map (pa / 16 + ·)
  gs.foldl (fun s g =>
    match Sparse.get? s.lines (g / 8) with
    | some l =>
      { s with lines := Sparse.set s.lines (g / 8) { l with poison := Sparse.set l.poison g origin, dirty := true } }
    | none => { s with poison := Sparse.set s.poison g origin }) s

/-- Whether a site holds a copy of a line, which its reads then hit (R66). -/
def State.hitsCopy (s : State) (pa from_ : Nat) : Bool :=
  match Sparse.get? s.lines (pa / 128) with | some l => l.sharers.getLsbD from_ | none => false

/-- What a read at the home slice leaves behind: the count of R65, and for a normal page the line allocated and the copy of R66;
a read that hits the site's copy does not come to the home slice. -/
def State.touchHome (s : State) (pa : Nat) (uncached : Bool) (reader : Nat) : State :=
  if !s.ownDram pa || (!uncached && s.hitsCopy pa (reader / 4)) then s
  else
    let s1 := (s.countRemote pa (reader / 4) false).noteUncached pa uncached
    if uncached then s1 else (s1.fillLine (s1.effPa pa / 128)).leaveCopy pa reader

/-- A site's copy of a line is invalidated (R66). -/
def State.dropCopy (s : State) (pa site : Nat) : State :=
  match Sparse.get? s.lines (pa / 128) with
  | some l =>
    if l.sharers.getLsbD site then { s with lines := Sparse.set s.lines (pa / 128) (l.without site) } else s
  | none => s

/-- An atomic arrives at the home slice, whether it comes to write or not: it counts as a remote write (R65), its line is
allocated for a normal page, and every copy is invalidated (R66). -/
def State.atomHome (s : State) (pa : Nat) (uncached : Bool) (from_ : Nat) : State :=
  if !s.ownDram pa then s
  else
    let s1 := (s.countRemote pa from_ true).noteUncached pa uncached
    let s2 := if uncached then s1 else s1.fillLine (s1.effPa pa / 128)
    match Sparse.get? s2.lines (s2.effPa pa / 128) with
    | some l => { s2 with lines := Sparse.set s2.lines (s2.effPa pa / 128) l.alone }
    | none => s2

/-- Bytes of this device's DRAM become unspecified where they stand (R190). -/
def State.voidByte (s : State) (pa : Nat) : State :=
  let p := s.effPa pa
  let b := Config.spillByte s.fresh pa
  if !s.ownDram pa || s.vaultLost pa then s
  else match Sparse.get? s.lines (p / 128) with
  | some l => { s with lines := Sparse.set s.lines (p / 128) (l.write (p % 128) [b]) }
  | none => s.setDramByte p b

/-- The bytes that a read at the home slice returns. -/
def State.readHome (s : State) (pa n : Nat) : List Byte :=
  (List.range n).map (fun i => s.homeByte (s.effPa (pa + i)))

end Sys2Proof.Machine
end

