-- ==== Sys2Proof/Machine/DevRead.lean ====
section
/-!
DEFINITION. Device registers as they read (R47, R64, R466): frame modes, queues, slot and launch tables, the governor's registers,
MEASURE and the inbound filter.
-/
namespace Sys2Proof.Machine

/-- A little-endian field of a list of bytes. -/
def fld (bs : List Byte) (i n : Nat) : Nat := leNat ((bs.drop i).take n)

/-! ### Bind records (Table 13.4) -/

/-- A free record. -/
def BindRecord.free : BindRecord := ⟨0, 0, 0, 0⟩
/-- STATE: 0 FREE, 1 PRE, 2 RUN. -/
def BindRecord.state (r : BindRecord) : Nat := bitsOf r.w0.toNat 62 2
/-- LTAG. -/
def BindRecord.ltag (r : BindRecord) : Nat := bitsOf r.w0.toNat 56 6
/-- SLOTB. -/
def BindRecord.slotb (r : BindRecord) : Nat := bitsOf r.w0.toNat 52 4
/-- SEAMSET. -/
def BindRecord.seamset (r : BindRecord) : Nat := bitsOf r.w0.toNat 44 4
/-- ABASE. -/
def BindRecord.abase (r : BindRecord) : Nat := bitsOf r.w0.toNat 41 3
/-- ACCN. -/
def BindRecord.accn (r : BindRecord) : Nat := bitsOf r.w0.toNat 37 4
/-- QRANK. -/
def BindRecord.qrank (r : BindRecord) : Nat := bitsOf r.w0.toNat 32 3
/-- BLK. -/
def BindRecord.blk (r : BindRecord) : Nat := bitsOf r.w0.toNat 0 32
/-- SPSIZE, in units of 128 bytes. -/
def BindRecord.spsize (r : BindRecord) : Nat := bitsOf r.w1.toNat 32 15
/-- SPBASE, in units of 128 bytes. -/
def BindRecord.spbase (r : BindRecord) : Nat := bitsOf r.w1.toNat 0 14
/-- PEERj: core in the site and slot-table entry. -/
def BindRecord.peer (r : BindRecord) (j : Nat) : Nat × Nat := (bitsOf r.w2.toNat (8 * j + 6) 2, bitsOf r.w2.toNat (8 * j) 6)
/-- CTX. -/
def BindRecord.ctx (r : BindRecord) : Nat := bitsOf r.w3.toNat 12 40 * 4096
/-- RST. -/
def BindRecord.rst (r : BindRecord) : Bool := r.w3.getLsbD 0
/-- Whether a reserved field is not zero (R448). -/
def BindRecord.reservedSet (r : BindRecord) : Bool :=
  decide (bitsOf r.w0.toNat 48 4 ≠ 0) || decide (bitsOf r.w0.toNat 35 2 ≠ 0) || decide (bitsOf r.w1.toNat 47 17 ≠ 0) ||
    decide (bitsOf r.w1.toNat 14 18 ≠ 0) || decide (bitsOf r.w3.toNat 52 12 ≠ 0) || decide (bitsOf r.w3.toNat 1 11 ≠ 0)
/-- The record with another STATE. -/
def BindRecord.withState (r : BindRecord) (st : Nat) : BindRecord :=
  { r with w0 := BitVec.ofNat 64 (r.w0.toNat % 2 ^ 62 + st * 2 ^ 62) }

/-- The bind record of an entry. -/
def Core.record (c : Core) (e : Nat) : BindRecord := Sparse.getD c.records e BindRecord.free
/-- Sets the STATE of an entry's record. -/
def State.setRecordState (s : State) (core e st : Nat) : State :=
  s.modCore core (fun c => { c with records := Sparse.set c.records e ((c.record e).withState st) })

/-- Word 0 of a record (Table 13.4). -/
def recordWord0 (st ltag slotb seamset abase accn qrank blk : Nat) : DWord :=
  BitVec.ofNat 64 (st * 2 ^ 62 + ltag * 2 ^ 56 + slotb * 2 ^ 52 + seamset * 2 ^ 44 + abase * 2 ^ 41 + accn * 2 ^ 37 +
    qrank * 2 ^ 32 + blk % 2 ^ 32)

/-! ### Launch tables and queues (R287, R276) -/

/-- The bytes of a launch-table entry. -/
def Core.ltBytes (c : Core) (e : Nat) : List Byte := Sparse.getD c.launches e (List.replicate 384 0)
/-- NPEND. -/
def Queue.npend (q : Queue) : Nat := (q.work.filter (·.isSome)).length


/-! ### Registers as they read -/

/-- A queue register (Table 13.1). -/
def Queue.word (q : Queue) (i : Nat) : Nat :=
  match i with
  | 0 => q.quant * 2 ^ 32 + q.asid * 2 ^ 16 + bit1 q.en * 8 + q.prio
  | 1 => q.base + q.log2n
  | 2 => q.tail
  | 3 => q.head
  | 4 => q.plist
  | 5 => q.gid
  | 6 => bit1 q.refused * 256 + q.npend
  | _ => 0

/-- Degrees from hundredths, not below 0 (Table 14.6). -/
def degrees (x : Int) : Nat := (x / 100).toNat % 256
/-- TSTATE (Table 14.6). -/
def State.tstate (s : State) (site : Nat) : Nat :=
  let x := s.site site
  let gid := match s.group with | some g => g.gid % 256 | none => 0xFF
  degrees s.cool * 2 ^ 32 + degrees x.tdram * 2 ^ 24 + gid * 2 ^ 16 + x.applied * 256 + x.group * 16 + x.local_
/-- SENSTAT (Table 25.2). -/
def State.senstat (s : State) (site : Nat) : Nat :=
  let x := s.site site
  let bits (lo : Nat) (p : Sensor → Bool) : Nat :=
    ((List.range 16).map (fun i => match Sparse.get? x.sensors (lo + i) with
      | some y => if p y then 2 ^ i else 0
      | none => 0)).sum
  bits 0 (·.failed) * 2 ^ 48 + bits 0 (·.paired) * 2 ^ 32 + bits 16 (·.failed) * 2 ^ 16 + bit1 x.coolFail * 8 +
    bit1 x.noTrust * 4 + bit1 ((List.range 4).any (fun i => (s.core (site * 4 + i)).ceiling.isSome)) * 2 + bit1 x.silent

/-- The bytes of MEASURE (R319). -/
def State.measureBytes (s : State) : List Byte := s.measure.flatMap (fun d => leBytes 64 d.toNat)

/-- The 8 bytes at a multiple of 8 in the device-register block of a site, as a number; 0 where no register is. -/
def State.devWord (s : State) (site ofs : Nat) : Nat :=
  if 0x100000 ≤ ofs ∧ ofs < 0x104000 then
    let x := s.site site
    leNat ((List.range 8).map (fun i =>
      let F := 2 * (ofs - 0x100000 + i)
      BitVec.ofNat 8 ((Sparse.getD x.modes F 0).toNat + 16 * (Sparse.getD x.modes (F + 1) 0).toNat)))
  else if 0x200000 ≤ ofs ∧ ofs < 0x208000 then
    (s.queue (site * 512 + (ofs - 0x200000) / 64)).word (ofs / 8 % 8)
  else if 0x300000 ≤ ofs ∧ ofs < 0x302000 then
    let r := (s.core (site * 4 + (ofs - 0x300000) / 0x800)).record (ofs / 32 % 64)
    (match ofs / 8 % 4 with | 0 => r.w0 | 1 => r.w1 | 2 => r.w2 | _ => r.w3).toNat
  else if 0x330000 ≤ ofs ∧ ofs < 0x330020 then (s.core (site * 4 + (ofs - 0x330000) / 8)).ltvalid.toNat
  else if 0x340000 ≤ ofs ∧ ofs < 0x358000 then
    let o := (ofs - 0x340000) % 0x6000
    fld ((s.core (site * 4 + (ofs - 0x340000) / 0x6000)).ltBytes (o / 384)) (o % 384) 8
  else if ofs = 0x400000 then s.tstate site
  else if ofs = 0x400008 then s.senstat site
  else if 0x500000 ≤ ofs ∧ ofs < 0x500400 ∧ site = 0 then fld s.measureBytes (ofs - 0x500000) 8
  else if 0x600000 ≤ ofs ∧ ofs < 0x602000 ∧ site = 0 then Sparse.getD s.filter ((ofs - 0x600000) / 8) 0
  else 0

/-- `n` bytes of device registers of this device from a physical address (R466). -/
def State.devRead (s : State) (pa n : Nat) : List Byte :=
  (List.range n).map (fun i =>
    let o := paOfs (pa + i)
    byteAt (s.devWord (paSite pa) (o / 8 * 8)) (o % 8))

end Sys2Proof.Machine
end

