-- ==== Sys2Proof/Machine/Translate.lean ====
section
/-!
DEFINITION. Translation (R49 to R54, R394, R395): the walk of a four-level table, the TLBs, the placement table, and the
fetch of an instruction.
-/
namespace Sys2Proof.Machine

/-- How a walk ends: with a translation, or with the cause and subcode of the failed access (R393, R394, R404). -/
inductive WalkEnd where
  | ok (e : TlbEntry)
  | fail (cause sub : Nat)
  deriving DecidableEq, Repr

/-- A number of eight bytes at a physical address as a walker of a site reads it; none where the read meets poison (R404, R408). -/
def State.tableWord (s : State) (site pa : Nat) : Option Nat :=
  if (s.unreachable site pa).isSome || (s.poisonIn pa 8).isSome then none else some (leNat (s.readHome pa 8))

/-- A bit of a number as a truth value. -/
def tb (x i : Nat) : Bool := x.testBit i

/-- The index of a level (Table 3.3). -/
def levelIndex (va : Nat) : Nat → Nat
  | 0 => bitsOf va 43 13
  | 1 => bitsOf va 29 14
  | 2 => bitsOf va 21 8
  | _ => bitsOf va 16 5
/-- Pages of 64 KiB that a leaf maps, by level and C (Table 3.3). -/
def leafPages (level : Nat) (c : Bool) : Nat :=
  match level with
  | 1 => if c then 262144 else 8192
  | 2 => 32
  | _ => 1

/-- The 32 entries of a 16 GiB run are identical (R49). -/
def State.runSame (s : State) (site table va e : Nat) : Bool :=
  let first := levelIndex va 1 / 32 * 32
  (List.range 32).all (fun i => s.tableWord site (table + 8 * (first + i)) == some e)
/-- A read of one of the 32 entries of a 16 GiB run meets poison (R404). -/
def State.runPoison (s : State) (site table va : Nat) : Bool :=
  let first := levelIndex va 1 / 32 * 32
  (List.range 32).any (fun i => (s.tableWord site (table + 8 * (first + i))).isNone)

/-- A leaf entry: malformed (R394), naming a reserved place (SUB 7), or a translation. -/
def State.leafEnd (s : State) (site asid va level table e : Nat) : WalkEnd :=
  let c := tb e 7
  let pages := leafPages level c
  let base := bitsOf e 8 44 * 256
  let mt := bitsOf e 52 2
  if mt = 3 ∨ base % (pages * 65536) ≠ 0 ∨ (c ∧ level ≠ 1) then .fail 0x04 4
  else if c ∧ s.runPoison site table va then .fail 0x14 4
  else if c ∧ ¬ s.runSame site table va e then .fail 0x04 4
  else if paSpace base ≥ 2 ∨ paDev base ≥ 900 then .fail 0x04 7
  else if (mt = 2) ≠ (paSpace base = 1) then .fail 0x04 4
  else .ok ⟨asid, va / 65536 / pages * pages, pages, base, mt, tb e 4, tb e 3, tb e 2⟩

/-- The walk from a level down (R49, R50), `fuel` levels left; a table that is not aligned is taken as it stands (log 11). -/
def State.walkFrom (s : State) (site asid va level table : Nat) : Nat → WalkEnd
  | 0 => .fail 0x04 4
  | fuel + 1 =>
    match s.tableWord site (table + 8 * levelIndex va level) with
    | none => .fail 0x14 4
    | some e =>
      if !tb e 0 then .fail 0x04 level
      else if bitsOf e 54 10 ≠ 0 ∨ bitsOf e 5 2 ≠ 0 then .fail 0x04 4
      else if tb e 1 then (if level = 0 then .fail 0x04 4 else s.leafEnd site asid va level table e)
      else if level = 3 ∨ tb e 7 then .fail 0x04 4
      else s.walkFrom site asid va (level + 1) (bitsOf e 8 44 * 256) fuel

/-- A whole walk by a walker of a site (R49 to R51): the ASID table entry first. -/
def State.walk (s : State) (site asid va : Nat) : WalkEnd :=
  match s.tableWord site (bitsOf s.asidbase 16 36 * 65536 + 16 * asid) with
  | none => .fail 0x14 4
  | some e => if !tb e 0 then .fail 0x04 5 else s.walkFrom site asid va 0 (bitsOf e 16 36 * 65536) 4

/-- The addresses of the table entries that a walk reads from a level down; of a run of 16 GiB all 32 (R49). -/
def State.walkReads (s : State) (site va level table : Nat) : Nat → List Nat
  | 0 => []
  | fuel + 1 =>
    let pa := table + 8 * levelIndex va level
    pa :: match s.tableWord site pa with
      | none => []
      | some e =>
        if !tb e 0 then []
        else if tb e 1 then
          (if tb e 7 && level == 1 then (List.range 32).map (fun i => table + 8 * (levelIndex va 1 / 32 * 32 + i)) else [])
        else s.walkReads site va (level + 1) (bitsOf e 8 44 * 256) fuel

/-- A walker's reads are plain reads through the home slices (R52): they leave their lines there, and count (R65). -/
def State.walkTouch (s : State) (core asid va : Nat) : State :=
  let first := bitsOf s.asidbase 16 36 * 65536 + 16 * asid
  let rest := match s.tableWord (core / 4) first with
    | some e => if tb e 0 then s.walkReads (core / 4) va 0 (bitsOf e 16 36 * 65536) 4 else []
    | none => []
  (first :: rest).foldl (fun s pa => s.touchHome pa false core) s

/-- Whether a TLB entry translates a page of an ASID. -/
def TlbEntry.hits (e : TlbEntry) (asid vpn : Nat) : Bool :=
  e.asid == asid && decide (e.vpn ≤ vpn ∧ vpn < e.vpn + e.pages)
/-- The physical address of a virtual one in an entry's page. -/
def TlbEntry.pa (e : TlbEntry) (va : Nat) : Nat := e.base + (va - e.vpn * 65536)

/-- Adds a translation to a TLB of a given size; which one leaves a full TLB is unspecified (R52). -/
def tlbAdd (size victim : Nat) (l : List TlbEntry) (e : TlbEntry) : List TlbEntry :=
  let l1 := if l.length < size then l else l.eraseIdx (victim % l.length)
  l1 ++ [e]

/-- Fills both TLBs that serve a core (R52). -/
def State.fillTlb (s : State) (core : Nat) (e : TlbEntry) : State :=
  let v := Config.tlbVictim s.fresh
  ((s.modCore core (fun c => { c with tlb := tlbAdd 128 v c.tlb e })).modSite (core / 4)
    (fun x => { x with tlb := tlbAdd 8192 v x.tlb e })).bumpFresh

/-- A translation that the TLBs of a core hold (R52). -/
def State.tlbFind (s : State) (core asid vpn : Nat) : Option TlbEntry :=
  match (s.core core).tlb.find? (fun e => e.hits asid vpn) with
  | some e => some e
  | none => (s.site (core / 4)).tlb.find? (fun e => e.hits asid vpn)

/-- A translation that a unit makes within its own time: from the TLBs of a core, or by a walk. -/
def State.walkAt (s : State) (core asid va : Nat) : WalkEnd :=
  match s.tlbFind core asid (va / 65536) with
  | some e => .ok e
  | none => s.walk (core / 4) asid va

/-- A walk that a unit makes within its own time: like any, it reads through the home slices and fills the TLBs (R52, R65). -/
def State.walkNow (s : State) (core asid va : Nat) : State :=
  match s.tlbFind core asid (va / 65536) with
  | some _ => s
  | none =>
    let s1 := s.walkTouch core asid va
    match s.walk (core / 4) asid va with
    | .ok e => s1.fillTlb core e
    | .fail _ _ => s1
/-- The same for each of some addresses. -/
def State.walkEach (s : State) (core asid : Nat) (vas : List Nat) : State := vas.foldl (fun s va => s.walkNow core asid va) s
/-- In deterministic mode the walks of a thread's access take no time of their own (R44). -/
def State.walkDet (s : State) (core asid : Nat) (vas : List Nat) : State := if (s.core core).det then s.walkEach core asid vas else s

/-- What a translation at a memory port gives: a page, a walk still to be made, or the failure of the walk that was made. -/
inductive TransEnd where
  | page (e : TlbEntry)
  | miss
  | fail (cause sub : Nat)
  deriving DecidableEq, Repr

/-- Translation for a thread (R52): from the TLBs; by the walk of a failed attempt that the thread waited for; in
deterministic mode at once (R44). -/
def State.translate (s : State) (core asid va : Nat) (walked : Option (Nat × TrapInfo)) : TransEnd :=
  match s.tlbFind core asid (va / 65536) with
  | some e => .page e
  | none =>
    match walked with
    | some (v, i) =>
      if v = va / 65536 then .fail i.cause i.tinfo
      else .miss
    | none =>
      if (s.core core).det then
        match s.walk (core / 4) asid va with
        | .ok e => .page e
        | .fail c b => .fail c b
      else .miss

/-- Starts a walk for a page unless one is on its way, and answers its identity (R52). -/
def State.startWalk (s : State) (core asid va : Nat) : State × Nat :=
  match s.walks.find? (fun w => w.core = core ∧ w.asid = asid ∧ w.vpn = va / 65536) with
  | some w => (s, w.id)
  | none =>
    let w : Walk := ⟨s.nextId, core, asid, va / 65536, s.clk + Config.latency s.fresh⟩
    (({ s with walks := s.walks ++ [w] }.bumpId).bumpFresh, w.id)

/-- A thread waits for the walk of a page (R52), of a fetch or of an access. -/
def State.waitWalk (s : State) (tk asid va : Nat) (w : Nat → Wait) : State :=
  let (s1, id) := s.startWalk (tkCore tk) asid va
  s1.waitFor tk (w id)

/-- The placement table's answer for a walk's end (R54, R394). -/
def placementOf (s : State) : WalkEnd → Option Nat
  | .ok e => if e.mt = 0 ∧ paDev e.base = s.devno then some (paSite e.base) else none
  | .fail _ _ => none

/-- The key of a placement-table entry (R54): ASID and VA[55:16]. -/
def placeKey (asid vpn : Nat) : Nat := asid * 2 ^ 40 + vpn % 2 ^ 40

/-- WALK_COMPLETE (R49 to R54, R394): the walk that is on its way ends. A translation fills the TLBs; a failure is not
cached and waits for each thread that needs the page. -/
def State.completeWalk (s : State) (id : Nat) : State :=
  match s.walks.find? (fun w => w.id = id) with
  | none => s
  | some w =>
    let s0 := { s with walks := s.walks.filter (fun x => x.id != id) }
    let va := w.vpn * 65536
    let wake (g : Thread → Thread) : State → State := fun z =>
      { z with threads := Sparse.mapVals z.threads (fun _ t =>
          if t.wait = .walk id then g { t with wait := .none } else if t.wait = .dataWalk id then g { t with wait := .access } else t) }
    match s0.walk (w.core / 4) w.asid va with
    | .ok e => wake (fun t => t) ((s0.walkTouch w.core w.asid va).fillTlb w.core e)
    | .fail c b => wake (fun t => { t with walkFail := some (w.vpn, ⟨c, va, b⟩) }) (s0.walkTouch w.core w.asid va)

/-- The home site of a 64 KiB piece, and the placement table with the piece filled (R54). -/
def State.placementHome (s : State) (asid vpn : Nat) : Option Nat × State :=
  match Sparse.get? s.placement (placeKey asid vpn) with
  | some h => (h.1, s)
  | none =>
    let full := decide (s.placement.length ≥ 16384)
    let m := if full then s.placement.eraseIdx (Config.tlbVictim s.fresh % 16384) else s.placement
    let va := vpn % 2 ^ 40 * 65536
    let s1 := s.walkTouch 0 asid va
    match s.walk 0 asid va with
    | .ok e =>
      let h := placementOf s (.ok e)
      (h, { s1 with placement := Sparse.set m (placeKey asid vpn) (h, e.vpn, e.pages) }.bumpFresh)
    | .fail _ _ => (none, s1)

/-- The U check of R395: user mode with an ASID other than 0 needs U. -/
def userDenied (t : Thread) (asid : Nat) (e : TlbEntry) : Bool := t.mode == .user && asid != 0 && !e.u

/-! ### Fetch (R63, R393, R396) -/

/-- What a fetch gives: twelve bytes with the lines of this device that they lie in and whether each is uncached, a page walk or the
trap. -/
inductive FetchEnd where
  | word (bytes : List Byte) (lines : List (Nat × Bool))
  | miss (va : Nat)
  | fail (i : TrapInfo)
  deriving DecidableEq, Repr

/-- A fetch fault (R396): TVAL is the PC, SPACE is 5. -/
def fetchFault (cause sub : Nat) (pc : BitVec 56) : TrapInfo := ⟨cause, pc.toNat, memInfo sub 0 false 5 false 0⟩

/-- A byte of code: a device register's where the page is device-register space (R64), else as the instruction cache of the core
holds it, or as its home slice does (R63). -/
def State.codeByte (s : State) (core pa : Nat) : Byte :=
  if paSpace pa = 1 then (if paDev pa = s.devno then (s.devRead pa 1).getD 0 0 else 0)
  else match Sparse.get? (s.core core).icache (pa / 128) with
  | some l => byteAt l.toNat (pa % 128)
  | none => s.homeByte (s.effPa pa)

/-- The ORIGIN with which a byte of code is answered as poison: its granule's, a place that cannot be reached, or a register of
another device, which refuses the access (R315). A line that the instruction cache holds is not read again (R63). -/
def State.codePoison (s : State) (core pa : Nat) : Option Nat :=
  if paSpace pa = 1 then (if paDev pa = s.devno then none else some 5)
  else if (Sparse.get? (s.core core).icache (pa / 128)).isSome then none
  else match s.unreachable (core / 4) pa with
  | some o => some o
  | none => s.poisonOf pa

/-- The fetch of a thread at a PC: each of the two pages that its twelve bytes may touch is translated and needs X (R391,
Table 23.3). A PC that is no multiple of 4, which only a refilled return address can bring, is fetched from as it stands (log 19). -/
def State.fetch (s : State) (core asid : Nat) (t : Thread) (pc : BitVec 56) : FetchEnd :=
  if t.pcTop ≠ 0 then .fail (topFault t)
  else
  let vas := [pc.toNat, (pc + 11#56).toNat]
  let ends := vas.map (fun va => (va, s.translate core asid va t.walkFail))
  match ends.find? (fun x => match x.2 with | .page _ => false | _ => true) with
  | some (va, .miss) => .miss va
  | some (_, .fail c b) => .fail (fetchFault c b pc)
  | _ =>
    let es := ends.filterMap (fun x => match x.2 with | .page e => some e | _ => none)
    if es.any (userDenied t asid) then .fail (fetchFault 0x05 0 pc)
    else if es.any (fun e => !e.x) then .fail (fetchFault 0x05 2 pc)
    else
      let paAt (i : Nat) : Nat :=
        let va := (pc + BitVec.ofNat 56 i).toNat
        match es.find? (fun e => e.hits asid (va / 65536)) with | some e => e.pa va | none => 0
      let pas := (List.range 12).map paAt
      match (pas.filterMap (s.codePoison core)).head? with
      | some o => .fail (fetchFault 0x14 o pc)
      | none =>
        .word (pas.map (s.codeByte core)) ((pas.filter s.ownDram).map (fun pa => (pa / 128, es.any (fun e => e.mt != 0)))).eraseDups

/-- Instruction lines that a fetch brought in from L2 (R63): 1,024 lines of 128 bytes at most. Only normal lines of this device's
own DRAM are kept (R48, R64); an uncached one is read at its home slice each time (R65). -/
def State.fillCode (s : State) (core : Nat) (lines : List (Nat × Bool)) : State :=
  lines.foldl (fun s x =>
    let ln := x.1
    match Sparse.get? (s.core core).icache ln with
    | some _ => s
    | none =>
      if x.2 then s.touchHome (ln * 128) true core else
      let data := BitVec.ofNat 1024 (leNat ((List.range 128).map (fun i => s.codeByte core (ln * 128 + i))))
      ((s.touchHome (ln * 128) false core).modCore core (fun c =>
        let old := if c.icache.length < 1024 then c.icache
          else c.icache.eraseIdx (Config.icacheVictim s.fresh % c.icache.length)
        { c with icache := Sparse.set old ln data })).bumpFresh) s

end Sys2Proof.Machine
end

