-- ==== Sys2Proof/Machine/Skein.lean ====
section
/-!
DEFINITION. Skeins, their barrier phases and collectives (R37 to R39, R193 to R197, R353, R357 to R359), and what a thread
does when it leaves: EXIT (R191) and the withdrawal of a report (R422).
-/
namespace Sys2Proof.Machine

/-- The phase of a skein or a trap skein; a skein that was never used has an empty one. -/
def Block.phaseOf (b : Block) : FlagHome → Phase
  | .skein k => Sparse.getD b.phases k (Phase.empty 0)
  | .trap n => match b.trapSkeins.find? (fun z => z.num = n) with | some z => z.phase | none => Phase.empty 0

/-- Replaces a phase. -/
def Block.setPhase (b : Block) (h : FlagHome) (p : Phase) : Block :=
  match h with
  | .skein k => { b with phases := Sparse.set b.phases k p }
  | .trap n => { b with trapSkeins := b.trapSkeins.map (fun z => if z.num = n then { z with phase := p } else z) }

/-- The live threads of a skein of a block, or of a trap skein, in ascending %thr (R37, R353). -/
def State.members (s : State) (bk : Nat) (h : FlagHome) : List Nat :=
  (s.threadsOf bk).filterMap (fun c =>
    let t := c.2
    let inIt := match h with
      | .skein k => t.skeins.getLsbD k
      | .trap n => t.trapSkein == some n
    if !t.exited && inIt then some (tkThr c.1) else none)

/-! ### Values of collectives (R196, R221) -/

/-- An operation of Table 6.10 on two W-bit values: the result and the flags of the float operations. -/
def redOp (op w a b : Nat) : Nat × FlagWord :=
  let res (r : Res) : Nat × FlagWord := (r.code, r.flags)
  match op with
  | 0 => ((a + b) % 2 ^ w, 0)
  | 1 => (wrapTo (min (intOf a w true) (intOf b w true)) w, 0)
  | 2 => (wrapTo (max (intOf a w true) (intOf b w true)) w, 0)
  | 3 => (min a b, 0)
  | 4 => (max a b, 0)
  | 5 => (a &&& b, 0)
  | 6 => (a ||| b, 0)
  | 7 => (a ^^^ b, 0)
  | 8 => (b, 0)
  | 9 => res (arAdd fp32 .rn (ofIeee fp32 a) (ofIeee fp32 b))
  | 10 => res (arMinMax fp32 false a b)
  | _ => res (arMinMax fp32 true a b)

/-- The sum of 2^j over the ranks j that satisfy a test (BALLOT, SKMATCH). -/
def ballotBits (g : Arrival → Bool) (xs : List Arrival) : Nat :=
  (xs.zipIdx.map (fun c => if g c.1 then 2 ^ c.2 else 0)).sum

/-- The fold of SKRED in ascending rank (R196). -/
def foldRed (op : Nat) (xs : List Nat) : Nat × FlagWord :=
  match xs with
  | [] => (0, 0)
  | x :: r => r.foldl (fun acc y => let (v, w) := redOp op 32 acc.1 y; (v, acc.2 ||| w)) (x, 0)

/-- The member that SHFL names from rank r (R196). -/
def shflFrom (mode r b : Nat) : Int :=
  match mode with
  | 0 => b
  | 1 => (r : Int) - b
  | 2 => r + b
  | _ => (r ^^^ b : Nat)

/-- The result of a collective for the arrival of rank r: a register value, a predicate and flags (R196). -/
def collResult (xs : List Arrival) (r : Nat) (me : Arrival) : Nat × Bool × FlagWord :=
  let n := xs.length
  let tr := xs.map (fun a => a.a != 0)
  match me.op with
  | .vote =>
    let m := me.x % 4
    (0, (if m = 0 then tr.all id else if m = 1 then tr.any id else tr.all id || !tr.any id), 0)
  | .ballot => (ballotBits (fun a => a.a != 0) xs, false, 0)
  | .skmatch => (ballotBits (fun a => a.a == me.a) xs, false, 0)
  | .shfl =>
    let i := shflFrom (me.x % 4) r me.b
    ((if 0 ≤ i ∧ i < n then ((xs.map (·.a)).getD i.toNat 0) else me.a), false, 0)
  | .skred => let (v, w) := foldRed (me.x % 16) (xs.map (·.a)); (v, false, w)
  | _ => (0, false, 0)

/-- The number that TVAL gives a skein in [59:56]. -/
def homeNum : FlagHome → Nat
  | .skein k => k
  | .trap _ => 0

/-! ### Completion (R38, R194, R195, R358, R359) -/

/-- Whether an access is held in a saved block's store buffer (R111). -/
def State.isSaved (s : State) (id : Nat) : Bool := s.saved.any (fun x => x.stores.any (fun r => r.id == id))
/-- Those of some accesses that are still in flight or held in a saved block: not yet performed, or not yet acknowledged or returned. -/
def State.flying (s : State) (ids : List Nat) : List Nat :=
  (ids.filter (fun i => s.reqs.any (fun r => r.id == i) || s.isSaved i)).eraseDups

/-- A released member: BAR retires; a collective's window receives its result, or closes without one (R358). What precedes the arrival
of any member happens-before what follows (R107). A speculation snapshot of the member is released as it is. All members are released at one time, so that those of one stitch trap as
one (R359). -/
def releaseOne (bk : Nat) (h : FlagHome) (xs : List Arrival) (trap : Option TrapInfo) (s : State)
    (x : Arrival × Nat) : State :=
  let a := x.1
  let tk := bk * 4096 + a.t
  let big := decide (xs.length > 64)
  match s.thread? tk with
  | none => s
  | some _ =>
    let misuse : Option TrapInfo :=
      if big && a.op != .bar then some ⟨0x09, homeNum h * 2 ^ 56 + xs.length % 65536, 1⟩ else none
    let done (t : Thread) : Thread :=
      if a.op = .bar then { t.retire with wait := .release (s.due (tkCore tk) 8) }
      else if big then { t with pends := t.pends.filter (fun p => p.id != a.pend) }
      else
        let (v, p, w) := collResult xs x.2 a
        { t with pends := t.pends.map (fun q =>
            if q.id = a.pend then
              { q with
                vals := destVals q.regs v, pval := p, ready := true, flags := w, due := s.due (tkCore tk) 40, raises := false
                completion := s.nextId }
            else q) }
    (s.modSnapped tk (fun t =>
      { done t with trapNext := t.trapNext ++ misuse.toList ++ trap.toList, hb := s.flying (t.hb ++ xs.flatMap (·.accs)) }))

/-- TVAL of cause 0x0B (Table 21.3). -/
def armTrap (k : Nat) (arm fl : FlagWord) : TrapInfo := ⟨0x0B, k * 256 + arm.toNat * 16 + fl.toNat, 0⟩

/-- One phase completes: its members are released in ascending %thr, armed flags trap them, and the next phase begins with
the members of this cycle and the arrivals that came for it (R38, R359). -/
def State.completePhase (s : State) (bk : Nat) (h : FlagHome) : State :=
  match s.block? bk with
  | none => s
  | some b =>
    let p := b.phaseOf h
    let xs := sortBy (fun x y => decide (x.t ≤ y.t)) p.arrived
    let trap : Option TrapInfo := match h with
      | .skein k =>
        let arm := Sparse.getD b.arms k 0
        let fl := Sparse.getD b.flags k 0
        if arm &&& fl ≠ 0 then some (armTrap k arm fl) else none
      | .trap _ => none
    let s0 := ((xs.zipIdx.foldl (releaseOne bk h xs trap) s).bumpFresh).bumpId
    let s1 := xs.foldl (fun s a => s.settleTrap (bk * 4096 + a.t)) s0
    let mem := s1.members bk h
    let late := p.late.filter (fun a => mem.contains a.t)
    let next : Phase :=
      { waiting := mem.filter (fun t => !(late.any (fun a => a.t == t))), arrived := late, late := []
        fixed := late.head?.map (fun a => (a.pc, a.op)), began := s.clk }
    s1.modBlock bk (fun b => b.setPhase h next)

/-- Completes a phase that nobody is expected in any more, so that the next expects the members (R38); a second one at once if
every member had come early. -/
def State.phaseCheck (s : State) (bk : Nat) (h : FlagHome) : State :=
  let done (s : State) : Bool :=
    match s.block? bk with
    | some b => let p := b.phaseOf h; p.waiting == [] && !(p.arrived == [] && p.late == [] && s.members bk h == [])
    | none => false
  let s1 := if done s then s.completePhase bk h else s
  if done s1 then s1.completePhase bk h else s1

/-! ### Arriving, joining, leaving -/

/-- Arrives at a phase (R194, R195, R357): none when the arrival diverges from the fixing arrival. A member that arrives again
before the phase completes arrives at the next one (log 64). -/
def Phase.arrive (p : Phase) (a : Arrival) : Option Phase :=
  if p.waiting.contains a.t then
    match p.fixed with
    | some (pc, op) =>
      if pc = a.pc ∧ op = a.op then
        some { p with waiting := p.waiting.filter (· != a.t), arrived := p.arrived ++ [a] }
      else none
    | none =>
      some { p with waiting := p.waiting.filter (· != a.t), arrived := p.arrived ++ [a], fixed := some (a.pc, a.op) }
  else match p.late.head? with
    | some l => if l.pc = a.pc ∧ l.op = a.op then some { p with late := p.late ++ [a] } else none
    | none => some { p with late := [a] }

/-- The fixing arrival that a diverging arrival met. -/
def Phase.fixingFor (p : Phase) (t : Nat) : BitVec 56 × Op :=
  if p.waiting.contains t then p.fixed.getD (0, .bar)
  else match p.late.head? with | some l => (l.pc, l.op) | none => (0, .bar)

/-- The skein that BAR, a collective or FLAGS of a thread acts on (R353). -/
def barHome (t : Thread) (f : Fields) : FlagHome :=
  match t.mode, t.trapSkein with
  | .trap, some n => .trap n
  | _, _ => .skein f.low4

/-- Whether a thread is a member of what BAR or a collective of it acts on (R194, R353). -/
def Thread.inBar (t : Thread) (f : Fields) : Bool :=
  match barHome t f with | .skein k => t.skeins.getLsbD k | .trap _ => true

/-- The lane mask of the issuing stitch's arriving members (Table 21.3, cause 0x08): those whose guard is true and that take no
other trap. -/
def State.arrivingLanes (s : State) (op : Op) (f : Fields) : Nat :=
  (s.cur.members.map (fun tk =>
    match s.thread? tk, s.block? (tkBk tk) with
    | some t, some b =>
      if guardOf t f && !t.exited && (nextTrap t).isNone && (wordTrap op f t b).isNone && t.inBar f && s.flagsSet tk t then
        2 ^ laneOfThr (tkThr tk)
      else 0
    | _, _ => 0)).foldl (· ||| ·) 0

/-- A thread arrives with BAR or a collective: cause 0x09 if it is no member (R358), cause 0x08 if it diverges (R357). The arrival
waits for the flags of the thread's earlier instructions (R168). -/
def arriveBody (op : Op) (f : Fields) (lanes : Nat) (tk : Nat) (t : Thread) (b : Block) (s : State) : State :=
  let h := barHome t f
  let bk := tkBk tk
  if !t.inBar f then s.takeTrap tk ⟨0x09, homeNum h * 2 ^ 56, 0⟩ s.cur.id false
  else if !s.flagsSet tk t then s.waitFor tk .flags
  else
    let a : Arrival :=
      { t := tkThr tk, op := op, pc := t.pc, a := opndA op t b f, b := opndB op t b f, x := f.x.toNat, pend := s.nextId
        accs := s.flying ((s.reqs.filter (fun r => r.tk = tk)).map (·.id) ++ t.hb) }
    let p := b.phaseOf h
    match p.arrive a with
    | none =>
      let (pc, op0) := p.fixingFor (tkThr tk)
      s.takeTrap tk ⟨0x08, bit1 (op0 != .bar) * 2 ^ 60 + homeNum h * 2 ^ 56 + pc.toNat, lanes⟩ s.cur.id false
    | some p1 =>
      let w : Wait := match h with | .skein k => .bar false k | .trap n => .bar true n
      let q : Pend :=
        { id := s.nextId, op := op, left := f.la.toNat
          kind := .coll (match h with | .trap _ => true | _ => false) (match h with | .skein k => k | .trap n => n)
          regs := destRegs op b.limits f, pred := predWritten op b.limits f, buf := [], need := 0, acq := false, vals := [], pval := false
          ready := false, mark := none, flags := 0, home := flagHome t, due := 0, overAt := []
          raises := op == .skred && decide (9 ≤ f.x.toNat % 16) }
      let t1 := if op = .bar then { t with wait := w, waitSince := if t.wait = w then t.waitSince else s.clk }
        else t.retire.openPend q
      (((s.setThread tk t1).setBlock bk (b.setPhase h p1)).bumpId).phaseCheck bk h

/-- A thread leaves a phase: expected no more, its arrival gone also where its window is still open (log 64), and the phase may complete (R38). -/
def State.leavePhase (s : State) (bk : Nat) (h : FlagHome) (thr : Nat) : State :=
  let leave (b : Block) : Block :=
    let p := b.phaseOf h
    b.setPhase h { p.without thr with late := p.late.filter (fun a => a.t != thr) }
  (s.modBlock bk leave).phaseCheck bk h

/-- SKJOIN (R193, R38): a phase without members and arrivals completes as it stands, so that the next one begins in this
cycle with the thread as a member (log 24). -/
def joinBody (f : Fields) (tk : Nat) (t : Thread) (b : Block) (s : State) : State :=
  let k := f.low4
  if t.mode = .trap then s.takeTrap tk ⟨0x09, k * 2 ^ 56, 2⟩ s.cur.id false
  else if t.skeins.getLsbD k then s.setThread tk t.retire
  else
    let p := b.phaseOf (.skein k)
    let p1 : Phase :=
      if p.waiting = [] ∧ p.arrived = [] then { Phase.empty s.clk with waiting := [tkThr tk], late := p.late }
      else if p.began = s.clk then { p with waiting := p.waiting ++ [tkThr tk] }
      else p
    (s.setBlock (tkBk tk) (b.setPhase (.skein k) p1)).setThread tk { t.retire with skeins := t.skeins ||| (1#16 <<< k) }

/-- SKLEAVE (R193, R38). -/
def leaveBody (f : Fields) (tk : Nat) (t : Thread) (_ : Block) (s : State) : State :=
  let k := f.low4
  if t.mode = .trap then s.takeTrap tk ⟨0x09, k * 2 ^ 56, 2⟩ s.cur.id false
  else if !t.skeins.getLsbD k then s.setThread tk t.retire
  else
    (s.setThread tk { t.retire with skeins := t.skeins &&& ~~~(1#16 <<< k) }).leavePhase (tkBk tk) (.skein k) (tkThr tk)

/-- EXIT (R191, R354): the thread ends; loads in flight are discarded, flags of the function group still come (R168), its
reports are dropped and logged, and it leaves its trap skein and every skein at once. -/
def State.exitThread (s : State) (tk : Nat) : State :=
  match s.thread? tk with
  | none => s
  | some t =>
    let gone (r : Req) : Bool :=
      r.tk == tk && (match r.act with | .load _ | .refill _ => true | _ => r.stage == .done && !r.counted)
    let s1 := { s with reqs := (s.reqs.filter (fun r => !gone r)).map (fun (r : Req) => if r.tk = tk then { r with pend := none } else r) }
    let s2 := (List.range t.reports.length).foldl (fun s _ => s.log 1) s1
    let s3 := s2.setThread tk
      { t with exited := true, wait := .none, pends := []
               flagsDue := t.flagsDue ++ (t.pends.filter (fun p => p.ready && p.flags != 0)).map (fun p => (p.due, p.home, p.flags))
               reports := [], trapNext := [], spec := none, skeins := 0
               trapSkein := none, marks := [] }
    let s4 := match t.trapSkein with
      | some n => (s3.modBlock (tkBk tk) (fun b => b.leaveTrap n (tkThr tk))).phaseCheck (tkBk tk) (.trap n)
      | none => s3
    ((List.range 16).filter t.skeins.getLsbD).foldl (fun s k => s.leavePhase (tkBk tk) (.skein k) (tkThr tk)) s4

/-- TRET (R203, R354): returns, and the trap skein's phase may complete without the thread. -/
def State.tret (s : State) (tk : Nat) : State :=
  match s.thread? tk with
  | some t =>
    match t.trapSkein with
    | some n => (s.trapReturn tk).phaseCheck (tkBk tk) (.trap n)
    | none => s.trapReturn tk
  | none => s

/-- The arrival of a thread in a phase, if it has one. -/
def Phase.arrivalOf (p : Phase) (thr : Nat) : Option Arrival := (p.arrived ++ p.late).find? (fun a => a.t = thr)

/-- Withdraws the arrival of a thread (R422): the phase expects it again, and a collective's window closes with its
destination unwritten and its PC restored. -/
def State.withdraw (s : State) (tk : Nat) (h : FlagHome) : State :=
  match s.block? (tkBk tk), s.thread? tk with
  | some b, some t =>
    let p := b.phaseOf h
    match p.arrivalOf (tkThr tk) with
    | some a =>
      let was := p.arrived.any (fun x => x.t == tkThr tk)
      let left := p.arrived.filter (fun x => x.t != tkThr tk)
      let p1 : Phase :=
        { p with
          arrived := left, late := p.late.filter (fun x => x.t != tkThr tk)
          waiting := if was then p.waiting ++ [tkThr tk] else p.waiting
          fixed := if left = [] then none else p.fixed }
      (s.setBlock (tkBk tk) (b.setPhase h p1)).setThread tk
        { t with wait := .none, pc := a.pc, pends := t.pends.filter (fun q => q.id != a.pend) }
    | none => s
  | _, _ => s

/-- The skein whose collective keeps a thread waiting with its window closed. -/
def Thread.collWait (t : Thread) : Option FlagHome :=
  t.pends.findSome? (fun p =>
    match p.kind with
    | .coll tr k => if p.left = 0 ∧ !p.ready then some (if tr then .trap k else .skein k) else none
    | _ => none)

/-- A blocked thread that holds a deferred report leaves its wait (R422); in trap mode and on a speculative path no report is
delivered (R401, R34), and the thread waits on. -/
def State.leaveWait (s : State) (tk : Nat) : State :=
  match s.thread? tk with
  | none => s
  | some t =>
    if t.reports = [] ∨ t.exited ∨ t.mode = .trap ∨ t.spec.isSome then s
    else match t.wait, t.collWait with
    | .bar tr k, _ => s.withdraw tk (if tr then .trap k else .skein k)
    | .none, some h | .window, some h | .replay _, some h | .yielded _, some h => s.withdraw tk h
    | .flags, _ | .bwait _ _ _ _ _, _ | .seam _ _, _ | .stwait _, _ | .matrixRoom _, _ | .matrixEntry _ _, _ =>
      s.setThread tk { t with wait := .none }
    | _, _ => s

/-- FLAGS on skein SK of the block, in trap mode too (R197, R353). Every member of the stitch reads the word from before the
instruction (`s0`); flags raised in the cycle of a .clr stay set. -/
def flagsBody (s0 : State) (f : Fields) (tk : Nat) (t : Thread) (b : Block) (s : State) : State :=
  let k := f.low4
  let b0 := (s0.block? (tkBk tk)).getD b
  let old := (Sparse.getD b0.flags k 0).toNat + 16 * (Sparse.getD b0.arms k 0).toNat
  let m : FlagWord := BitVec.ofNat 4 (opndA .flags t b f)
  let now : FlagWord := match Sparse.get? b.raised k with | some (c, x) => if c = s.clk then x else 0 | none => 0
  let b1 := match f.x.toNat % 4 with
    | 1 => { b with flags := Sparse.set b.flags k ((Sparse.getD b.flags k 0 &&& ~~~m) ||| now) }
    | 2 => { b with arms := Sparse.set b.arms k m }
    | _ => b
  let t1 := (t.retire.setReg f.d.toNat (BitVec.ofNat 32 old)).readyFrom .flags b.limits f (s.due (tkCore tk) 4)
  ((s.setBlock (tkBk tk) b1).setThread tk t1).bumpFresh

end Sys2Proof.Machine
end

