-- ==== Sys2Proof/Machine/Access.lean ====
section
/-!
DEFINITION. Memory accesses at a thread's port: the five checks of R391 in order, pieces of plain accesses (R96, R215),
mirrored stores (R70), and the accesses in flight that a load, store, atomic or spill leaves (R98, R111, R217 to R225).
-/
namespace Sys2Proof.Machine

/-- A piece of an access: where it goes, which byte of the access it starts at, and its length. -/
structure PortPiece where
  place : Place
  part : Nat
  len : Nat
  deriving DecidableEq, Repr

/-- The result of the checks at the memory port (R391): pieces, a page walk, or a trap. -/
inductive PortEnd where
  | ok (ps : List PortPiece)
  | miss (va : Nat)
  | trap (i : TrapInfo)
  deriving DecidableEq, Repr

/-- What an instruction asks of its port: OPC, bytes, whether it writes, whether it must be aligned and with which
subcode, whether it is a read-modify-write, its SPACE and SZ of TINFO, and whether a mirrored window multicasts it. -/
structure PortAsk where
  opc : Nat
  n : Nat
  w : Bool
  align : Option Nat
  rmw : Bool
  space : Nat
  sz : Nat
  mirror : Bool
  deriving DecidableEq, Repr

/-- The length of the naturally aligned piece that starts at an address with `n` bytes still to tile. -/
def pieceLen (a n : Nat) : Nat :=
  if a % 16 = 0 ∧ n ≥ 16 then 16 else if a % 8 = 0 ∧ n ≥ 8 then 8 else if a % 4 = 0 ∧ n ≥ 4 then 4
  else if a % 2 = 0 ∧ n ≥ 2 then 2 else 1
/-- The naturally aligned pieces that tile `n` bytes at an address (R96): offset and length. -/
def tileFrom (a part n : Nat) : Nat → List (Nat × Nat)
  | 0 => []
  | fuel + 1 => if n = 0 then [] else
      let k := pieceLen a n
      (part, k) :: tileFrom (a + k) (part + k) (n - k) fuel
/-- The pieces of an access. -/
def tile (a n : Nat) : List (Nat × Nat) := tileFrom a 0 n n

/-- Whether an access is split into pieces (R215). -/
def isSplit (a n : Nat) : Bool := decide ((tile a n).length > 1)

/-- TINFO of an access: SPLIT marks a plain access split into pieces (Table 23.1). -/
def PortAsk.tinfo (q : PortAsk) (a sub : Nat) : Nat := memInfo sub q.opc q.w q.space (q.align.isNone && isSplit a q.n) q.sz

/-- The permission check of R395 for one page: the failing subcode. -/
def permSub (q : PortAsk) (t : Thread) (asid : Nat) (e : TlbEntry) : Option Nat :=
  if userDenied t asid e then some 0
  else if q.w && !e.w then some 1
  else if q.rmw && e.mt == 2 then some 3
  else none

/-- The lowest byte of a range at or after `a` that lies in page `vpn`. -/
def lowestIn (a vpn : Nat) : Nat := max a (vpn * 65536)

/-- The checks of a global or thread-local access (R391, R392): form, alignment, translation of every page, permission of
every page. -/
def State.globalPort (s : State) (tk : Nat) (t : Thread) (b : Block) (q : PortAsk) (ea : Nat) : PortEnd :=
  if ea + q.n > 2 ^ 56 then .trap ⟨0x04, max ea (2 ^ 56), q.tinfo ea 6⟩
  else match q.align with
  | some sub => if ea % q.n ≠ 0 then .trap ⟨0x03, ea, q.tinfo ea sub⟩ else go
  | none => go
where
  go : PortEnd :=
    let vpns := [ea / 65536, (ea + q.n - 1) / 65536].eraseDups
    let ends := vpns.map (fun v => (v, s.translate (tkCore tk) b.asid (v * 65536) t.walkFail))
    match ends.find? (fun x => match x.2 with | .page _ => false | _ => true) with
    | some (v, .miss) => .miss (v * 65536)
    | some (v, .fail c sub) => .trap ⟨c, lowestIn ea v, q.tinfo ea sub⟩
    | _ =>
      let es := ends.filterMap (fun x => match x.2 with | .page e => some (x.1, e) | _ => none)
      match es.find? (fun x => (permSub q t b.asid x.2).isSome) with
      | some (v, e) => .trap ⟨0x05, lowestIn ea v, q.tinfo ea ((permSub q t b.asid e).getD 0)⟩
      | none =>
        .ok ((tile ea q.n).map (fun c =>
          let va := ea + c.1
          match es.find? (fun x => x.1 = va / 65536) with
          | some (_, e) =>
            { place := if e.mt = 2 then .dev (e.pa va) else .dram (e.pa va) (e.mt == 1), part := c.1, len := c.2 }
          | none => { place := .dev 0, part := c.1, len := c.2 }))

/-- The walks of an access's pages in deterministic mode (R44); a form that fails before translation makes none (R391). -/
def State.walkPort (s : State) (core asid : Nat) (q : PortAsk) (ea : Nat) : State :=
  if ea + q.n > 2 ^ 56 || (q.align.isSome && ea % q.n != 0) then s else s.walkDet core asid [ea, ea + q.n - 1]

/-- Whether a byte offset lies in the block's mirrored window (R70). -/
def Block.inWindow (b : Block) (o : Nat) : Bool :=
  b.desc.mirrored && decide (b.desc.mirrOfs ≤ o ∧ o < b.desc.mirrOfs + b.desc.mirrLen)

/-- The peer checks of R399 and the bounds of R398 for `n` bytes at a scratchpad address: the cause and subcode, and the
failing address. -/
def Block.scrCheck (b : Block) (a n : Nat) : Option (Nat × Nat × Nat) :=
  if a < 2 ^ 31 then
    if a + n > b.spsize then some (0x06, 0, max a b.spsize) else none
  else
    let j := a / 2 ^ 28 % 8
    let o := a % 2 ^ 28
    if j ≥ b.desc.quilt then some (0x07, 0, a)
    else if !b.presence.getLsbD j then some (0x07, 1, a)
    else if o + n > b.desc.scratch then some (0x06, 1, max a (a - o + b.desc.scratch))
    else none

/-- The copies that a scratchpad address names: core, block slot and offset in the allocation (R68). -/
def Block.scrCopy (b : Block) (a : Nat) : Nat × Nat × Nat :=
  if a < 2 ^ 31 then (b.core, b.bslot, a)
  else let (c, e) := b.peers.getD (a / 2 ^ 28 % 8) (b.core, b.bslot); (c, e, a % 2 ^ 28)

/-- Every member's copy of an own offset (R70): the issuer first. -/
def Block.allCopies (b : Block) (o : Nat) : List (Nat × Nat × Nat) :=
  (b.core, b.bslot, o) ::
    (b.peers.filter (fun c => c != (b.core, b.bslot))).map (fun c => (c.1, c.2, o))

/-- The maximal runs of a piece that lie wholly in or wholly out of the mirrored window: offset, length, mirrored. -/
def Block.windowRuns (b : Block) (o n : Nat) : List (Nat × Nat × Bool) :=
  (List.range n).foldr (fun i acc =>
    let m := b.inWindow (o + i)
    match acc with
    | (p, k, m') :: r => if m' = m then (i, k + 1, m) :: r else (i, 1, m) :: (p, k, m') :: r
    | [] => [(i, 1, m)]) []

/-- The checks of a scratchpad access (R391, R398, R399): alignment, peers, bounds. A mirrored store needs every member. -/
def Block.scrPort (b : Block) (q : PortAsk) (a : Nat) : PortEnd :=
  let own := decide (a < 2 ^ 31)
  let q1 := { q with space := if own then 1 else 2 }
  let mirrored := q.mirror && own && (List.range q.n).any (fun i => b.inWindow (a + i))
  let bad := match q.align with | some sub => if a % q.n ≠ 0 then some sub else none | none => none
  match bad with
  | some sub => .trap ⟨0x03, a, q1.tinfo a sub⟩
  | none =>
    if mirrored && (List.range b.desc.quilt).any (fun j => !b.presence.getLsbD j) then
      .trap ⟨0x07, max a b.desc.mirrOfs, q1.tinfo a 1⟩
    else match b.scrCheck a q.n with
    | some (c, sub, v) => .trap ⟨c, v, q1.tinfo a sub⟩
    | none =>
      .ok ((tile a q.n).flatMap (fun c =>
        if mirrored then
          (b.windowRuns (a + c.1) c.2).map (fun r =>
            { place := .scr (if r.2.2 then b.allCopies (a + c.1 + r.1) else [b.scrCopy (a + c.1 + r.1)])
              part := c.1 + r.1, len := r.2.1 })
        else [{ place := .scr [b.scrCopy (a + c.1)], part := c.1, len := c.2 }]))

/-! ### Addresses and orderings (R93, R214) -/

/-- GAddr (R214). -/
def gAddr (op : Op) (t : Thread) (b : Block) (f : Fields) : Nat :=
  (opndA op t b f + (f.imm.signExtend 64).toNat) % 2 ^ 64
/-- SAddr (R214). -/
def sAddr (op : Op) (t : Thread) (b : Block) (f : Fields) : Nat := (opndA op t b f + f.imm.toNat) % 2 ^ 32
/-- %tlbase of a thread (R71, R280). -/
def Block.tlBase (b : Block) (thr : Nat) : Nat :=
  let stride := b.desc.loc + 8192
  let set := if b.desc.tlSets = 0 then b.blk else b.blk % b.desc.tlSets
  (b.desc.tlbase + set * b.desc.ntid * stride + thr * stride) % 2 ^ 64
/-- LAddr (R214). -/
def lAddr (op : Op) (t : Thread) (b : Block) (f : Fields) (thr : Nat) : Nat :=
  (b.tlBase thr + sAddr op t b f) % 2 ^ 64

/-- MO as an ordering (Table 5.2). -/
def ordOf (mo : Nat) : Ord := match mo with | 1 => .rlx | 2 => .acq | 3 => .rel | 4 => .ar | _ => .plain
/-- SC as a scope (Table 5.2). -/
def scopeOf (sc : Nat) : Scope := match sc with | 0 => .sk | 1 => .stk | 2 => .pkg | _ => .sys
/-- The rank of a scope: each includes the narrower ones (R92). -/
def Scope.rank : Scope → Nat | .sk => 0 | .stk => 1 | .pkg => 2 | .sys => 3
/-- The narrower of two scopes. -/
def Scope.narrow (a b : Scope) : Scope := if a.rank ≤ b.rank then a else b
/-- A scratchpad access at .pkg or .sys executes at .stk (R105). -/
def Scope.clamp (a : Scope) : Scope := a.narrow .stk
/-- Whether an ordering releases. -/
def Ord.releases : Ord → Bool | .rel | .ar => true | _ => false
/-- Whether an ordering acquires. -/
def Ord.acquires : Ord → Bool | .acq | .ar => true | _ => false

/-- Bytes of an access size (Table 10.2). -/
def szBytes (sz : Nat) : Nat := match sz with | 0 | 5 => 1 | 1 | 6 => 2 | 2 => 4 | 3 => 8 | _ => 16

/-- Whether the agents of two threads lie within a scope of each other (Table 5.1). -/
def covers (sc : Scope) (a b : Nat) : Bool :=
  match sc with
  | .sk => tkBk a == tkBk b
  | .stk => tkCore a / 4 == tkCore b / 4
  | _ => true

/-! ### Accesses in flight -/

/-- Whether an action is a plain or ordered store. -/
def Action.isStore : Action → Bool | .store _ => true | _ => false
/-- Whether an action writes. -/
def Action.writes : Action → Bool | .store _ => true | .rmw .. => true | .cas .. => true | _ => false
/-- Whether an action reads. -/
def Action.reads : Action → Bool | .store _ => false | _ => true

/-- Whether a place lies in scratchpads. -/
def Place.isScr : Place → Bool | .scr _ => true | _ => false
/-- Whether a place is device-register space. -/
def Place.isDev : Place → Bool | .dev _ => true | _ => false

/-- The writes of a thread that are in flight. -/
def State.ownWrites (s : State) (tk : Nat) : List Nat :=
  (s.reqs.filter (fun r => r.tk = tk ∧ r.act.writes)).map (·.id)
/-- The acquires of a thread that have not returned: what they find happens-before what follows them (R100). -/
def State.ownAcquires (s : State) (tk : Nat) : List Nat :=
  (s.reqs.filter (fun r => r.tk = tk ∧ r.ord.acquires)).map (·.id)

/-- The releases that a write of a thread carries (R99): its own if it is .rel or .ar; else, unless it is plain, those of earlier
FENCEs, each at the narrower scope. -/
def relOf (s : State) (tk : Nat) (t : Thread) (w : Bool) (o : Ord) (sc : Scope) : List (Scope × List Nat) :=
  if !w then []
  else if o.releases then [(sc, s.ownWrites tk ++ t.hb)]
  else if o = .plain then []
  else t.fenced.map (fun x => (sc.narrow x.1, x.2))

/-- Adds one access in flight. -/
def State.addReq (s : State) (r : Req) : State := { s with reqs := s.reqs ++ [r] }.bumpId.bumpFresh

/-- The figure of Table 2.4 at which an access is acknowledged or its result lands; `State.figured` says where it applies. -/
def figureOf (place : Place) (act : Action) : Nat :=
  match act, place with
  | .rmw _ _ _ true, _ | .cas .., _ => 300
  | _, .scr _ => 24
  | _, _ => 240

/-- Whether the times of an access are the figures of Table 2.4 (R44): in deterministic mode, but not in device-register space or
for another device, whose times stay unspecified: they are free values (log 9). -/
def State.figured (s : State) (tk : Nat) (p : Place) : Bool :=
  (s.core (tkCore tk)).det && (match p with | .dev _ => false | .dram pa _ => s.ownDram pa | .scr _ => true)
/-- The cycle of the core's clock in which an access comes due: by a figure, else a free value. -/
def State.accessDue (s : State) (tk : Nat) (p : Place) (figure : Nat) : Nat :=
  s.now (tkCore tk) + (if s.figured tk p then figure else Config.latency s.fresh)
/-- When it is acknowledged: by a figure, else a further free time after it has come due. -/
def State.ackDue (s : State) (tk : Nat) (p : Place) (figure : Nat) : Nat :=
  s.accessDue tk p figure + (if s.figured tk p then 0 else Config.ackLatency s.nextId)

/-- Whether a scratchpad access is ordered with its block's others to one peer: over the peer path, or a mirrored store (R69,
R106). -/
def Block.peerPath (b : Block) (act : Action) (p : Place) (space : Nat) : Bool :=
  match p with
  | .scr (c :: _) => space == 2 || (act.isStore && c.1 == b.core && c.2.1 == b.bslot && b.inWindow c.2.2)
  | _ => false

/-! ### Releases by location (R99) -/

/-- The location number under which the releases of a byte are kept: its space or copy, and its address. -/
def relKey (span : Nat × Nat) (i : Nat) : Nat := span.1 * 2 ^ 60 + span.2 + i
/-- The key of the allocation that a scratchpad copy lies in, and the copy's offset there. -/
def scrSpan (c : Nat × Nat × Nat) : Nat × Nat := (1 + bkOf c.1 c.2.1, c.2.2)

/-- The releases that the values of `n` bytes carry. -/
def State.relsAt (s : State) (span : Nat × Nat) (n : Nat) : List Release :=
  ((List.range n).flatMap (fun i => Sparse.getD s.releases (relKey span i) [])).eraseDups

/-- What a write of `n` bytes leaves there: its own releases, behind those of the sequence that a read-modify-write goes on with
(R99). -/
def State.putRels (s : State) (span : Nat × Nat) (n : Nat) (goesOn : Bool) (mine : List Release) : State :=
  if mine = [] ∧ (goesOn = true ∨ s.releases = []) then s
  else
    { s with releases := (List.range n).foldl (fun m i =>
        let old := if goesOn then Sparse.getD m (relKey span i) [] else []
        if old ++ mine = [] then Sparse.erase m (relKey span i) else Sparse.set m (relKey span i) (old ++ mine)) s.releases }

/-- A write that carries no release ends the release sequences of its bytes (R99). -/
def State.endReleases (s : State) (span : Nat × Nat) (n : Nat) : State := s.putRels span n false []

/-- What the release of a mirrored store carries of itself: it is written copy by copy, and happens-before what acquires it at one
(R100). -/
def Place.ownRelease (p : Place) (id : Nat) : List Nat := match p with | .scr (_ :: _ :: _) => [id] | _ => []

/-- A new access of a thread: what, where, its ordering and what its report would carry. -/
def State.newReq (s : State) (tk : Nat) (t : Thread) (b : Block) (act : Action) (p : PortPiece) (o : Ord) (sc : Scope)
    (pend : Option Nat) (group : Nat) (counted : Bool) (trap : TrapInfo) : Req :=
  let scr := match p.place with | .scr _ => true | _ => false
  let sc1 := if p.place.isDev then .sys else if scr then sc.clamp else sc
  let fig := figureOf p.place act
  { id := s.nextId, tk := tk, act := act, place := p.place, ord := o, scope := sc1, stage := .held
    gen := match p.place with | .dram pa _ => s.genOfPa pa | _ => 0
    dom := match p.place with | .dram pa _ => s.domainOfPa pa | _ => 0
    seq := 0, hem := none, got := [], mark := b.marks, pend := pend, part := p.part, before := t.hb, rel := (relOf s tk t act.writes o sc1).map (fun x => (x.1, p.place.ownRelease s.nextId ++ x.2)), ordered := t.ordered
    home := flagHome t, counted := counted, group := group, peer := b.peerPath act p.place (trap.tinfo / 16 % 8), trap := trap, issue := s.cur.id
    priv := t.mode == .trap || b.asid == 0
    due := s.accessDue tk p.place (fig / 2), ackDue := s.ackDue tk p.place fig }

/-- A number for the 16-byte granule that an aligned piece lies in; alike for every copy of a scratchpad offset. -/
def locOf : Place → Nat
  | .dram pa _ => pa / 16
  | .dev pa => pa / 16
  | .scr cs => match cs with | c :: _ => c.2.2 / 16 | [] => 0

/-- The writes of one issue to one location reach its ordering point in one cycle (R218, R223): outside deterministic mode
the free value depends on the issue and the location alone. -/
def State.sameArrival (s : State) (tk : Nat) (r : Req) : Req :=
  if s.figured tk r.place then r else { r with due := s.now (tkCore tk) + Config.writeLatency s.cur.id (locOf r.place * 16) }

/-- The load of a piece. -/
def loadPiece (tk : Nat) (t : Thread) (b : Block) (o : Ord) (sc : Scope) (pend group : Nat) (trap : TrapInfo)
    (s : State) (p : PortPiece) : State :=
  s.addReq (s.newReq tk t b (.load p.len) p o sc (some pend) group false trap)

/-- The store of a piece: its bytes of the data. -/
def storePiece (tk : Nat) (t : Thread) (b : Block) (o : Ord) (sc : Scope) (group : Nat) (trap : TrapInfo)
    (bytes : List Byte) (s : State) (p : PortPiece) : State :=
  s.addReq (s.sameArrival tk (s.newReq tk t b (.store ((bytes.drop p.part).take p.len)) p o sc none group true trap))

/-- The window of a load or an atomic (R31). -/
def memPend (op : Op) (lim : Limits) (f : Fields) (id n : Nat) (kind : PendKind) (acq : Bool) (due : Nat) (h : FlagHome) : Pend :=
  { id := id, op := op, left := f.la.toNat, kind := kind, regs := destRegs op lim f, pred := none, buf := [], need := n, acq := acq
    vals := [], pval := false, ready := false, mark := none, flags := 0, home := h, due := due, overAt := [] }

/-- Whether an access must wait before it enters the port: device-register space on a speculative path (R34), or after a
device-type access of the thread that is not complete (R104). -/
def State.portWait (s : State) (tk : Nat) (t : Thread) (ps : List PortPiece) : Option Wait :=
  if ps.any (fun p => p.place.isDev) then
    if t.spec.isSome then some .specPort
    else if s.reqs.any (fun r => r.tk == tk && r.place.isDev) then some .serial
    else none
  else none

/-- Puts an access whose checks are made into flight, or traps, waits for a walk, or waits at the port. -/
def State.atPort (s : State) (tk : Nat) (t : Thread) (b : Block) (e : PortEnd) (go : List PortPiece → State) : State :=
  match e with
  | .trap i => (s.setThread tk { t with walkFail := none }).takeTrap tk i s.cur.id false
  | .miss va => s.waitWalk tk b.asid va .dataWalk
  | .ok ps => match s.portWait tk t ps with
    | some w => s.waitFor tk w
    | none => go ps

/-- A global or thread-local access at its port. -/
def State.atGlobal (s : State) (tk : Nat) (t : Thread) (b : Block) (q : PortAsk) (ea : Nat) (go : State → List PortPiece → State) : State :=
  let s1 := s.walkPort (tkCore tk) b.asid q ea
  s1.atPort tk t b (s1.globalPort tk t b q ea) (go s1)

/-- When the result of a load lands, at the earliest (R44). -/
def State.loadDue (s : State) (tk : Nat) (ps : List PortPiece) : Nat :=
  match ps.head? with | some p => s.accessDue tk p.place (figureOf p.place (.load 0)) | none => s.now (tkCore tk)

/-- A load with a destination (R217). -/
def State.doLoad (s : State) (op : Op) (f : Fields) (tk : Nat) (t : Thread) (b : Block) (q : PortAsk) (a : Nat)
    (o : Ord) (sc : Scope) (ps : List PortPiece) : State :=
  let signed := decide (f.sz ≥ 5)
  let pd := memPend op b.limits f s.nextId q.n (.load q.n signed) o.acquires (s.loadDue tk ps) (flagHome t)
  let trap : TrapInfo := ⟨0x14, a, q.tinfo a 0⟩
  let s1 := ((s.setThread tk { t.retire.openPend pd with walkFail := none }).bumpId).bumpFresh
  ps.foldl (loadPiece tk t b o sc pd.id s1.nextId trap) s1

/-- A store (R218): counted once in %pst (R163). -/
def State.doStore (s : State) (tk : Nat) (t : Thread) (b : Block) (q : PortAsk) (a : Nat) (o : Ord) (sc : Scope)
    (bytes : List Byte) (ps : List PortPiece) : State :=
  let trap : TrapInfo := ⟨0x07, a, q.tinfo a 3⟩
  let s1 := s.setThread tk { t.retire with pst := t.pst + 1, walkFail := none }
  ps.foldl (storePiece tk t b o sc s1.nextId trap bytes) s1

/-- A read-modify-write (R221, R225): with a window when it has a destination, counted in %pst when it has none. -/
def State.doRmw (s : State) (op : Op) (f : Fields) (tk : Nat) (t : Thread) (b : Block) (q : PortAsk) (a : Nat)
    (o : Ord) (sc : Scope) (ret : Bool) (act : Action) (ps : List PortPiece) : State :=
  match ps with
  | p :: _ =>
    let trap : TrapInfo := ⟨(if ret then 0x14 else 0x07), a, q.tinfo a (if ret then 0 else 3)⟩
    if ret then
      let pd := memPend op b.limits f s.nextId q.n .atom o.acquires (s.accessDue tk p.place (figureOf p.place act)) (flagHome t)
      let s1 := ((s.setThread tk { t.retire.openPend pd with walkFail := none }).bumpId).bumpFresh
      s1.addReq (s1.sameArrival tk (s1.newReq tk t b act p o sc (some pd.id) s1.nextId false trap))
    else
      let s1 := s.setThread tk { t.retire with pst := t.pst + 1, walkFail := none }
      s1.addReq (s1.sameArrival tk (s1.newReq tk t b act p o sc none s1.nextId true trap))
  | [] => s

end Sys2Proof.Machine
end

