-- ==== Sys2Proof/Machine/Memory.lean ====
section
/-!
DEFINITION. Class 100 at issue (chapter 10): loads, stores, prefetch, atomics, reductions, compare-and-swap, FENCE, MARK and
CCTL. The accesses themselves are performed by the steps of Machine/Perform.lean.
-/
namespace Sys2Proof.Machine

/-- The request of a load or store (R215): aligned unless plain. -/
def plainAsk (op : Op) (f : Fields) (w : Bool) (space : Nat) (mirror : Bool) : PortAsk :=
  { opc := op.code.toNat, n := szBytes f.sz, w := w, align := if f.top3 = 0 then none else some 0, rmw := false
    space := space, sz := f.sz, mirror := mirror }
/-- The request of an atomic, reduction or compare-and-swap. -/
def rmwAsk (op : Op) (f : Fields) : PortAsk :=
  { opc := op.code.toNat, n := szBytes f.sz, w := true, align := some 1, rmw := true, space := 0, sz := f.sz
    mirror := false }

/-- A load on one thread: GLD, LLD (R214, R217). -/
def globalLoadBody (op : Op) (f : Fields) (loc : Bool) (tk : Nat) (t : Thread) (b : Block) (s : State) : State :=
  let ea := if loc then lAddr op t b f (tkThr tk) else gAddr op t b f
  let q := plainAsk op f false (if loc then 3 else 0) false
  s.atGlobal tk t b q ea
    (fun s ps => s.doLoad op f tk t b q ea (ordOf f.top3) (scopeOf f.sc) ps)
/-- SLD on one thread. -/
def scrLoadBody (op : Op) (f : Fields) (tk : Nat) (t : Thread) (b : Block) (s : State) : State :=
  let a := sAddr op t b f
  let q := { plainAsk op f false (if a < 2 ^ 31 then 1 else 2) false with mirror := false }
  s.atPort tk t b (b.scrPort q a) (fun ps => s.doLoad op f tk t b q a (ordOf f.top3) (scopeOf f.sc) ps)

/-- The data of a store (R216). -/
def storeData (op : Op) (t : Thread) (b : Block) (f : Fields) : List Byte := leBytes (szBytes f.sz) (opndB op t b f)

/-- A store on one thread: GST, LST (R214, R218). -/
def globalStoreBody (op : Op) (f : Fields) (loc : Bool) (tk : Nat) (t : Thread) (b : Block) (s : State) : State :=
  let ea := if loc then lAddr op t b f (tkThr tk) else gAddr op t b f
  let q := plainAsk op f true (if loc then 3 else 0) false
  s.atGlobal tk t b q ea
    (fun s ps => s.doStore tk t b q ea (ordOf f.top3) (scopeOf f.sc) (storeData op t b f) ps)
/-- SST on one thread (R70, R218). -/
def scrStoreBody (op : Op) (f : Fields) (tk : Nat) (t : Thread) (b : Block) (s : State) : State :=
  let a := sAddr op t b f
  let q := plainAsk op f true (if a < 2 ^ 31 then 1 else 2) true
  s.atPort tk t b (b.scrPort q a)
    (fun ps => s.doStore tk t b q a (ordOf f.top3) (scopeOf f.sc) (storeData op t b f) ps)

/-- The action of an atomic or reduction (R221): operation, width and operand. -/
def atomAction (op : Op) (t : Thread) (b : Block) (f : Fields) (ret : Bool) : Action :=
  .rmw (f.x.toNat % 16) (8 * szBytes f.sz) (opndB op t b f) ret
/-- The action of a compare-and-swap (R225). -/
def casAction (op : Op) (t : Thread) (b : Block) (f : Fields) : Action :=
  .cas (szBytes f.sz) (opndB op t b f) (opndC op t b f)

/-- GAMO, GRED, GCAS on one thread. -/
def globalRmwBody (op : Op) (f : Fields) (ret : Bool) (act : Thread → Block → Action) (tk : Nat) (t : Thread) (b : Block)
    (s : State) : State :=
  let ea := gAddr op t b f
  let q := rmwAsk op f
  s.atGlobal tk t b q ea
    (fun s ps => s.doRmw op f tk t b q ea (ordOf f.top3) (scopeOf f.sc) ret (act t b) ps)
/-- SAMO, SRED, SCAS on one thread. -/
def scrRmwBody (op : Op) (f : Fields) (ret : Bool) (act : Thread → Block → Action) (tk : Nat) (t : Thread) (b : Block)
    (s : State) : State :=
  let a := sAddr op t b f
  let q := { rmwAsk op f with space := if a < 2 ^ 31 then 1 else 2 }
  s.atPort tk t b (b.scrPort q a)
    (fun ps => s.doRmw op f tk t b q a (ordOf f.top3) (scopeOf f.sc) ret (act t b) ps)

/-- GLD (R217). -/
def execGld (f : Fields) (s : State) : Out := .next (issueAll .gld f (globalLoadBody .gld f false) s)
/-- GST (R218). -/
def execGst (f : Fields) (s : State) : Out := .next (issueAll .gst f (globalStoreBody .gst f false) s)
/-- SLD (R217). -/
def execSld (f : Fields) (s : State) : Out := .next (issueAll .sld f (scrLoadBody .sld f) s)
/-- SST (R218, R70). -/
def execSst (f : Fields) (s : State) : Out := .next (issueAll .sst f (scrStoreBody .sst f) s)
/-- LLD (R217). -/
def execLld (f : Fields) (s : State) : Out := .next (issueAll .lld f (globalLoadBody .lld f true) s)
/-- LST (R218). -/
def execLst (f : Fields) (s : State) : Out := .next (issueAll .lst f (globalStoreBody .lst f true) s)
/-- GAMO (R221). -/
def execGamo (f : Fields) (s : State) : Out :=
  .next (issueAll .gamo f (globalRmwBody .gamo f true (fun t b => atomAction .gamo t b f true)) s)
/-- GRED (R221, R224). -/
def execGred (f : Fields) (s : State) : Out :=
  .next (issueAll .gred f (globalRmwBody .gred f false (fun t b => atomAction .gred t b f false)) s)
/-- SAMO (R221). -/
def execSamo (f : Fields) (s : State) : Out :=
  .next (issueAll .samo f (scrRmwBody .samo f true (fun t b => atomAction .samo t b f true)) s)
/-- SRED (R221, R224). -/
def execSred (f : Fields) (s : State) : Out :=
  .next (issueAll .sred f (scrRmwBody .sred f false (fun t b => atomAction .sred t b f false)) s)
/-- GCAS (R225). -/
def execGcas (f : Fields) (s : State) : Out :=
  .next (issueAll .gcas f (globalRmwBody .gcas f true (fun t b => casAction .gcas t b f)) s)
/-- SCAS (R225). -/
def execScas (f : Fields) (s : State) : Out :=
  .next (issueAll .scas f (scrRmwBody .scas f true (fun t b => casAction .scas t b f)) s)

/-! ### Prefetch (R226) -/

/-- The line of a prefetch enters its home slice, or a copy is left; where any check fails nothing happens. -/
def prefBody (f : Fields) (tk : Nat) (t : Thread) (b : Block) (s : State) : State :=
  let ea := gAddr .pref t b f
  let s1 := s.setThread tk t.retire
  if ea ≥ 2 ^ 56 then s1
  else match s.tlbFind (tkCore tk) b.asid (ea / 65536) with
  | some e =>
    if userDenied t b.asid e || e.mt != 0 || !s.ownDram (e.pa ea) then s1
    else s1.touchHome (e.pa ea) false (tkCore tk)
  | none =>
    let s2 := s1.walkTouch (tkCore tk) b.asid ea
    match s.walk (tkCore tk / 4) b.asid ea with
    | .ok e =>
      if userDenied t b.asid e || e.mt != 0 || !s.ownDram (e.pa ea) then s2
      else (s2.fillTlb (tkCore tk) e).touchHome (e.pa ea) false (tkCore tk)
    | .fail _ _ => s2
/-- PREF (R226). -/
def execPref (f : Fields) (s : State) : Out := .next (issueAll .pref f (prefBody f) s)

/-! ### Fences and markers (R102, R103, R227, R228) -/

/-- Whether an access in flight is performed at a scope (Table 5.4). A load or an atomic with return counts only when it has
returned, a device-type access (R104) only when it is acknowledged, and then neither is in flight. -/
def Req.doneAt (r : Req) (sc : Scope) (own : Bool) : Bool :=
  let narrow := decide (sc.rank ≤ if own then 1 else 2)
  match r.act, r.place with
  | .store _, .scr _ | .rmw _ _ _ false, .scr _ => r.stage == .done
  | .store _, .dram _ _ | .rmw _ _ _ false, .dram _ _ =>
    ((r.stage == .done || r.hem.isSome) && narrow) || (own && sc == .sk && r.stage != .held)
  | _, _ => false

/-- Whether the access stays on this device. -/
def State.reqOwn (s : State) (r : Req) : Bool :=
  match r.place with | .dram pa _ => s.ownDram pa | .dev pa => paDev pa == s.devno | .scr _ => true

/-- The writes that earlier .rlx reads found and a FENCE at a scope acquires (R99). -/
def Thread.seenAt (t : Thread) (tk : Nat) (sc : Scope) : List Nat :=
  (t.seen.filter (fun x => covers (x.1.narrow sc) x.2.1 tk)).map (·.2.2)

/-- The condition of a FENCE at a scope for a thread (R102): every earlier access has returned or is performed at it, and
so is every write that happens-before it. -/
def State.fenceOk (s : State) (tk : Nat) (t : Thread) (sc : Scope) : Bool :=
  s.reqs.all (fun r => (r.tk != tk && !t.hb.contains r.id && !(t.seenAt tk sc).contains r.id) || r.doneAt sc (s.reqOwn r)) &&
    !(t.hb ++ t.seenAt tk sc).any s.isSaved

/-- The writes that earlier FENCEs of a scope, of threads within it, order before what follows this one (R102). -/
def State.fencesBefore (s : State) (tk : Nat) (sc : Scope) : List Nat :=
  s.flying ((s.fences.filter (fun x => x.1 == sc && x.2.1 != tk && covers sc x.2.1 tk)).flatMap (·.2.2))

/-- FENCE on one thread: waits, then takes its place in the fence order and carries its writes on (R99, R102). -/
def fenceBody (f : Fields) (tk : Nat) (t : Thread) (_ : Block) (s : State) : State :=
  let sc := scopeOf f.sc
  if s.fenceOk tk t sc then
    let hb := s.flying (t.hb ++ t.seenAt tk sc)
    let mine := s.flying (s.ownWrites tk)
    let live := (s.fences.map (fun x => (x.1, x.2.1, s.flying x.2.2))).filter (fun x => x.2.2 != [])
    { s with fences := if mine = [] then live else live ++ [(sc, tk, mine)] }.setThread tk
      { t.retire with
        hb := hb, seen := t.seen.filter (fun x => !covers (x.1.narrow sc) x.2.1 tk)
        fenced := (sc, mine ++ hb) :: t.fenced.filter (fun x => decide (sc.rank < x.1.rank))
        ordered := s.flying (t.ordered ++ s.fencesBefore tk sc) }
  else s.waitFor tk (.fence sc)
/-- FENCE (R227). -/
def execFence (f : Fields) (s : State) : Out := .next (issueAll .fence f (fenceBody f) s)

/-- MARK on one thread retires; the marker is the block's (R228). -/
def markBody (tk : Nat) (t : Thread) (_ : Block) (s : State) : State := s.setThread tk t.retire
/-- Whether some member of the stitch executes an instruction with a true guard, no trap waiting and no rejection. -/
def State.someIssues (s : State) (op : Op) (f : Fields) : Bool :=
  s.cur.members.any (fun tk =>
    match s.thread? tk, s.block? (tkBk tk) with
    | some t, some b =>
      !t.exited && (nextTrap t).isNone && t.spec.isNone && guardOf t f && (rejection op op.code.toNat t b f).isNone
    | _, _ => false)
/-- MARK (R103, R228): one marker for the block in the cycle of issue. -/
def execMark (f : Fields) (s : State) : Out :=
  let s1 := issueAll .mark f markBody s
  .next (if s.someIssues .mark f then s1.modBlock (bkOf s.cur.core s.cur.bslot) (fun b => { b with marks := b.marks + 1 })
    else s1)

/-! ### Cache control (R73, R229 to R231) -/

/-- The pages of a CCTL's range. -/
def rangePages (ea len : Nat) : List Nat :=
  if len = 0 then [] else (List.range ((ea + len - 1) / 65536 - ea / 65536 + 1)).map (ea / 65536 + ·)

/-- The lines of a page's part of a range, as physical lines. -/
def rangeLines (ea len : Nat) (e : TlbEntry) (vpn : Nat) : List Nat :=
  let lo := max ea (vpn * 65536)
  let hi := min (ea + len) ((vpn + 1) * 65536)
  if lo ≥ hi then []
  else (List.range (e.pa (hi - 1) / 128 - e.pa lo / 128 + 1)).map (e.pa lo / 128 + ·)

/-- One line of a CCTL (R73, R231): copies that the scope reaches are dropped; at the home, within the scope, the operation
acts, and dropping dirty data is a write of the value in DRAM (R231): it marks residencies (R245) and ends release sequences (R99). -/
def State.cctlLine (s : State) (op site : Nat) (wide : Bool) (ln : Nat) : State :=
  match Sparse.get? s.lines ln with
  | none => s
  | some l =>
    let home := wide || paSite (ln * 128) == site
    if home then
      match op with
      | 0 => s.writeBack ln
      | 1 => (if l.dirty then (s.staleMark (ln * 128)).endReleases (0, ln * 128) 128 else s).dropLine ln
      | _ => s.evictLine ln
    else if op = 0 then s
    else { s with lines := Sparse.set s.lines ln (l.without site) }

/-- The first check that fails over the pages of a CCTL (R392): form, then translation, then permission. -/
def cctlCheck (s : State) (t : Thread) (b : Block) (ea len : Nat) (w : Bool) : Option TrapInfo :=
  let q : PortAsk :=
    { opc := 0x92, n := len, w := w, align := none, rmw := false, space := 0, sz := 0, mirror := false }
  let info (sub : Nat) : Nat := memInfo sub 0x92 w 0 false 0
  if ea ≥ 2 ^ 56 ∨ ea + len > 2 ^ 56 then some ⟨0x04, max ea (2 ^ 56), info 6⟩
  else
    let ends := (rangePages ea len).map (fun v => (v, s.walkAt b.core b.asid (v * 65536)))
    match ends.find? (fun x => match x.2 with | .ok _ => false | _ => true) with
    | some (v, .fail c sub) => some ⟨c, lowestIn ea v, info sub⟩
    | _ =>
      (ends.findSome? (fun x => match x.2 with
        | .ok e => (permSub q t b.asid e).map (fun sub => ⟨0x05, lowestIn ea x.1, info sub⟩)
        | _ => none))

/-- The lines that a CCTL acts on: normal pages of this device alone hold lines (R229). -/
def cctlLines (s : State) (b : Block) (ea len : Nat) : List Nat :=
  (rangePages ea len).flatMap (fun v =>
    match s.walkAt b.core b.asid (v * 65536) with
    | .ok e => if e.mt = 0 ∧ s.ownDram e.base then rangeLines ea len e v else []
    | _ => [])

/-- CCTL on one thread (R229, R230): it begins when a FENCE at its scope would complete, and handles its lines at one
moment, which R231 allows. Its .sk acts as .stk (R73). -/
def cctlBody (f : Fields) (tk : Nat) (t : Thread) (b : Block) (s : State) : State :=
  let ea := gAddr .cctl t b f
  let len := opndB .cctl t b f
  let op := f.x.toNat % 4
  let s := if ea + len > 2 ^ 56 then s else s.walkEach (tkCore tk) b.asid ((rangePages ea len).map (· * 65536))
  match cctlCheck s t b ea len (op != 0) with
  | some i => s.takeTrap tk i s.cur.id false
  | none =>
    let sc := scopeOf (max 1 f.sc)
    if s.fenceOk tk t sc then
      let s1 := (cctlLines s b ea len).foldl (fun s ln => s.cctlLine op (tkCore tk / 4) (f.sc ≥ 2) ln) s
      s1.setThread tk t.retire
    else s.waitFor tk (.fence sc)
/-- CCTL (R229). -/
def execCctl (f : Fields) (s : State) : Out := .next (issueAll .cctl f (cctlBody f) s)

end Sys2Proof.Machine
end

