-- ==== Sys2Proof/Machine/Perform.lean ====
section
/-!
DEFINITION. Accesses in flight at their ordering points (chapter 05): when an access may be performed, what it then reads and
writes, releases and acquires (R98, R99), scratchpads and orphan writes (R69, R399, R400), results, retries and
acknowledgements.
-/
namespace Sys2Proof.Machine

/-! ### When an access may be performed -/

/-- The bytes of a place as location numbers: DRAM and registers by physical address, scratchpads by copy. -/
def Place.spans : Place → List (Nat × Nat)
  | .dram pa _ => [(0, pa)]
  | .dev pa => [(0, pa)]
  | .scr cs => cs.map (fun c => (1 + bkOf c.1 c.2.1, c.2.2))

/-- Bytes of an action. -/
def Action.len : Action → Nat
  | .load n => n
  | .store bs => bs.length
  | .rmw _ w _ _ => w / 8
  | .cas n _ _ => n
  | .refill _ => 8

/-- Whether two accesses touch a common location. -/
def Req.meets (a b : Req) : Bool :=
  a.place.spans.any (fun x => b.place.spans.any (fun y =>
    x.1 == y.1 && decide (x.2 < y.2 + b.act.len ∧ y.2 < x.2 + a.act.len)))

/-- The granule of 16 bytes in which an access acts next: DRAM and registers by physical address, scratchpads by the next copy. -/
def Place.granule : Place → Option (Nat × Nat)
  | .dram pa _ => some (0, pa / 16)
  | .dev pa => some (0, pa / 16)
  | .scr (c :: _) => some (1 + bkOf c.1 c.2.1, c.2.2 / 16)
  | .scr [] => none
/-- The physical address of an access to DRAM or device registers. -/
def Place.pa? : Place → Option Nat
  | .dram pa _ => some pa
  | .dev pa => some pa
  | .scr _ => none

/-- Whether two accesses are writes of one issue that stand at one stage of their way to one location (R218, R223). -/
def Req.mates (r e : Req) : Bool :=
  e.issue == r.issue && e.tk != r.tk && r.act.writes && e.act.writes && e.stage == r.stage && r.place.granule.isSome &&
    r.place.granule == e.place.granule
/-- Whether a mirrored store of the same issue is still to come to the copy that an access writes next (R218). -/
def Req.awaits (r e : Req) : Bool :=
  e.issue == r.issue && e.tk != r.tk && r.act.writes &&
    (match r.place, e.place with
    | .scr (_ :: _), .scr (_ :: rest) => rest.any (fun c => (Place.scr [c]).granule == r.place.granule)
    | _, _ => false)

/-- Whether an earlier access `e` of the same thread holds back `r`: one location (R95, R100); an acquire that has not
returned, or a reduction that acquires and is not acknowledged (R98, R224); a device-type access (R104). A load waits for the
thread's own earlier store, which R101 would let it take its value from (log 16). -/
def Req.heldByOwn (r e : Req) : Bool :=
  (e.stage != .done && (r.meets e || (e.place.isDev && r.place.isDev))) || e.ord.acquires

/-- Whether an earlier access of the same block holds back `r` at a marker, which acts as a FENCE.pkg (R103), on this device. -/
def State.heldByMark (s : State) (r e : Req) : Bool :=
  decide (e.mark < r.mark) && s.reqOwn e && s.reqOwn r && !e.doneAt .pkg true

/-- Whether an earlier scratchpad access of the same block on the peer path holds back `r` (R69, R106): of the same thread or of
another issue. -/
def Req.heldByPeer (r e : Req) : Bool :=
  r.peer && e.peer && e.stage != .done && (e.issue != r.issue || e.tk == r.tk) &&
    (match r.place, e.place with
    | .scr (c :: _), .scr cs => cs.any (fun d => d.1 == c.1 && d.2.1 == c.2.1)
    | _, _ => false)

/-- Whether the access must go to another site or device through the Hem station or a scale-up port. -/
def State.leavesSite (s : State) (r : Req) : Bool :=
  match r.place.pa? with
  | some pa => paDev pa != s.devno || paSite pa != tkCore r.tk / 4
  | none => false
/-- The unit of its site that answers an access to a physical address (Table 1.2): a slice, or the site controller for its registers. -/
def State.unitAt (s : State) (p : Place) (pa : Nat) : MeshUnit := if p.isDev then .controller else .slice (s.sliceOfPa pa % 16)
/-- The route of an access on the Hem (R13, R15). -/
def State.routeOf (s : State) (r : Req) (pa : Nat) : Option (Turn × Nat) := s.hemPath (tkCore r.tk / 4) (s.hemGoal pa)
/-- The unit of its own site that a request travels to on the request mesh (R10, R12). -/
def State.meshGoal (s : State) (r : Req) (pa : Nat) : MeshUnit :=
  if s.leavesSite r then hemPort (s.routeOf r pa) else s.unitAt r.place pa
/-- The unit of the other site at which a transfer leaves the Hem. -/
def hemExit (r : Option (Turn × Nat)) : MeshUnit := match r with | some (.ccw, _) => .hemCw | _ => .hemCcw
/-- Whether two accesses of a thread go to one other device (R314). -/
def State.oneDevice (s : State) (a b : Nat) : Bool := paDev a == paDev b && paDev a != s.devno

/-- Whether two accesses travel between one pair of ports at a stage of their way: of the mesh of their own site (R12), of sites on
the Hem (R14), or of the mesh of the other site. -/
def State.oneWay (s : State) (st : Stage) (r e : Req) (a b : Nat) : Bool :=
  match st with
  | .mesh => tkCore e.tk == tkCore r.tk && s.meshGoal e b == s.meshGoal r a
  | .hem => tkCore e.tk / 4 == tkCore r.tk / 4 && s.hemGoal b == s.hemGoal a
  | .far => paSite b == paSite a && hemExit (s.routeOf e b) == hemExit (s.routeOf r a) && s.unitAt e.place b == s.unitAt r.place a
  | _ => false

/-- Whether `e` goes ahead of `r` on their way: between one pair of ports in the order sent (R12, R14), and from one thread to one
other device in issue order (R314). -/
def State.behind (s : State) (r e : Req) : Bool :=
  match r.place.pa?, e.place.pa? with
  | some a, some b =>
    e.stage == r.stage && ((decide (e.seq < r.seq) && s.oneWay r.stage r e a b) ||
      (e.tk == r.tk && decide (e.id < r.id) && s.oneDevice a b && e.stage != .done))
  | _, _ => false

/-- Whether the Hem station of a release's site took a write in an earlier cycle that is not acknowledged yet, so that a .pkg
or .sys release that the station has not taken itself must wait (R98). -/
def State.hemHolds (s : State) (r e : Req) : Bool :=
  decide (r.scope.rank ≥ 2) && r.hem.isNone && e.act.writes && e.id != r.id && !r.mates e && tkCore e.tk / 4 == tkCore r.tk / 4 &&
    s.reqOwn e && (match e.hem with | some k => decide (k < s.clk) | none => false)

/-- Whether a release still waits (R98): own earlier accesses returned or performed at its scope, and so every access that
happens-before it; at .pkg and .sys also every write that the site's Hem station accepted earlier. -/
def State.releaseWaits (s : State) (r : Req) : Bool :=
  r.ord.releases && (r.before.any s.isSaved || s.reqs.any (fun e =>
    (decide (e.id < r.id) && e.tk == r.tk && !e.doneAt r.scope (s.reqOwn e)) ||
    (r.before.contains e.id && !e.doneAt r.scope (s.reqOwn e)) || s.hemHolds r e))

/-- Whether an access that happens-before `r` holds it back: on a common location, or an acquire, which brings further ones
(R100). -/
def Req.heldByBefore (r e : Req) : Bool :=
  e.stage != .done && ((r.before.contains e.id && (r.meets e || e.ord.acquires)) ||
    (r.act.reads && r.ordered.contains e.id && r.meets e))

/-- Whether nothing that is to come before an access is still to be performed. -/
def State.clearToGo (s : State) (r : Req) : Bool :=
  !s.releaseWaits r && !s.saved.any (fun x => x.stores.any r.heldByBefore) &&
  s.reqs.all (fun e =>
    !(decide (e.id < r.id) &&
        ((e.tk == r.tk && r.heldByOwn e) || (tkBk e.tk == tkBk r.tk && (s.heldByMark r e || r.heldByPeer e)))) &&
      !r.heldByBefore e && !s.behind r e)

/-- Whether an access has come due. -/
def State.reqDue (s : State) (r : Req) : Bool := decide (r.due ≤ s.now (tkCore r.tk))

/-- Whether an access may go on now: the writes of one issue to one location come to it in one cycle (R218, R223), and so wait for one
another. -/
def State.mayPerform (s : State) (r : Req) : Bool :=
  s.reqDue r && s.clearToGo r && s.reqs.all (fun e => !r.awaits e && (!r.mates e || (s.reqDue e && s.clearToGo e)))
/-- The accesses that go on in an access's step: those of its mates that come before it, in ascending order, and the access (R223). -/
def State.batch (s : State) (r : Req) : List Nat :=
  (s.reqs.filter (fun e => r.mates e && decide (e.id < r.id))).map (·.id) ++ [r.id]

/-- When an access that starts on a stage of its way comes to its end (R98): outside the figures of Table 2.4 after the cycles of
its path (R11, R14) and a free time (log 9). -/
def State.hopDue (s : State) (r : Req) (k path : Nat) : Nat :=
  if s.figured r.tk r.place then r.due
  else s.now (tkCore r.tk) + path +
    (if r.act.writes then Config.writeLatency r.issue (locOf r.place * 16 + k) else Config.readLatency r.id k)

/-! ### Releases and acquires (R99) -/

/-- Keeps the release that a write carries; a store ends the release sequence of its bytes, a read-modify-write goes on
with it (R99). -/
def State.noteWrite (s : State) (r : Req) (span : Nat × Nat) (n : Nat) : State :=
  s.putRels span n (!r.act.isStore) (r.rel.map (fun x => ⟨x.1, r.tk, s.flying x.2⟩))

/-! ### Writes of one arbitration cycle (R97) -/

/-- Where an access stands in class 3 of Table 5.3, lowest precedence first: core, slice, lane, slot. -/
def State.reqRank (s : State) (tk : Nat) : Nat :=
  let t := tkThr tk
  let slot := match s.block? (tkBk tk) with | some b => t / 192 + b.slotb | none => t / 192
  ((tkCore tk * 6 + sliceOfThr t) * 32 + laneOfThr t) * 16 + slot
/-- A precedence of Table 5.3 as one number: the class, and the place in it. -/
def precedence (cls inner : Nat) : Nat := cls * 2 ^ 32 + inner
/-- The bytes of a write that none of higher precedence has written in the same cycle (R97), in runs with their addresses. -/
def State.openRuns (s : State) (rank space a : Nat) (bs : List Byte) : List (Nat × List Byte) :=
  let taken (x : Nat) : Bool := s.cycleWrites.any (fun w => decide (rank < w.rank ∧ w.space = space ∧ w.at_ ≤ x ∧ x < w.at_ + w.n))
  bs.zipIdx.foldr (fun x acc =>
    if taken (a + x.2) then acc
    else match acc with
    | (p, l) :: r => if p = a + x.2 + 1 then (a + x.2, x.1 :: l) :: r else (a + x.2, [x.1]) :: acc
    | [] => [(a + x.2, [x.1])]) []
/-- A plain write is placed at its ordering point: what one of higher precedence has written in the same cycle stays (R97). `wr`
writes a run. -/
def State.placeWrite (s : State) (rank space a : Nat) (bs : List Byte) (wr : State → Nat → List Byte → State) : State :=
  let s1 := (s.openRuns rank space a bs).foldl (fun s x => wr s x.1 x.2) s
  { s1 with cycleWrites := ⟨rank, space, a, bs.length⟩ :: s1.cycleWrites }

/-- A set of accesses that holds an acquire holds what the acquire has found, too (R100). -/
def withAcquired (a : Nat) (ws l : List Nat) : List Nat := if l.contains a then (l ++ ws).eraseDups else l

/-- The accesses that precede an arrival, with what an acquire among them has found. -/
def Phase.acquired (a : Nat) (ws : List Nat) (p : Phase) : Phase :=
  let g (x : Arrival) : Arrival := { x with accs := withAcquired a ws x.accs }
  { p with arrived := p.arrived.map g, late := p.late.map g }

/-- A command with what an acquire that precedes it has found (R108). -/
def Cmd.acquired (a : Nat) (ws : List Nat) (c : Cmd) : Cmd := { c with before := withAcquired a ws c.before }
/-- A matrix entry with what an acquire that precedes it has found. -/
def MxEntry.acquired (a : Nat) (ws : List Nat) (e : MxEntry) : MxEntry := { e with before := withAcquired a ws e.before }

/-- A block with what an acquire of a member has found: its arrivals, and its commands and entries that wait outside the
queues. -/
def Block.acquired (a : Nat) (ws : List Nat) (b : Block) : Block :=
  { b with
    phases := Sparse.mapVals b.phases (fun _ p => p.acquired a ws)
    trapSkeins := b.trapSkeins.map (fun z => { z with phase := z.phase.acquired a ws })
    nodes := Sparse.mapVals b.nodes (fun _ n => { n with held := n.held.map (·.acquired a ws) })
    savedEntries := b.savedEntries.map (·.acquired a ws), savedCmds := b.savedCmds.map (·.acquired a ws) }

/-- A later access of the acquiring thread, or one that the acquire happens-before, with what the acquire has found. -/
def Req.acquired (r : Req) (ws : List Nat) (e : Req) : Req :=
  let g (l : List Nat) : List Nat := if e.tk = r.tk ∧ r.id < e.id then (l ++ ws).eraseDups else withAcquired r.id ws l
  { e with before := g e.before, rel := if e.ord.releases then e.rel.map (fun x => (x.1, g x.2)) else e.rel }

/-- What an acquire has found happens-before all that follows it, whether issued already or not (R99, R100). -/
def State.acquire (s : State) (r : Req) (ws : List Nat) : State :=
  if ws = [] then s
  else
    let th (tk : Nat) (t : Thread) : Thread :=
      { t with hb := if tk = r.tk then (t.hb ++ ws).eraseDups else withAcquired r.id ws t.hb }
    { s with
      threads := Sparse.mapVals s.threads th, ckpts := Sparse.mapVals s.ckpts th, reqs := s.reqs.map (r.acquired ws)
      blocks := Sparse.mapVals s.blocks (fun _ b => b.acquired r.id ws)
      cores := Sparse.mapVals s.cores (fun _ c =>
        { c with
          mxq := c.mxq.map (·.acquired r.id ws)
          queues := Sparse.mapVals c.queues (fun _ q => q.map (·.acquired r.id ws)) }) }

/-- Changes a thread by what one of its accesses brings; its speculation snapshot too, unless the access was issued on the
speculative path (R36). -/
def State.modAccessor (s : State) (r : Req) (g : Thread → Thread) : State :=
  let s1 := s.modThread r.tk g
  match Sparse.get? s1.ckpts r.tk with
  | some c =>
    let before := match r.pend with | some p => c.pends.any (fun q => q.id == p) | none => true
    if before then { s1 with ckpts := Sparse.set s1.ckpts r.tk (g c) } else s1
  | none => s1

/-- What a read takes over from the releases of its bytes (R99): an acquire at once, a .rlx read at a later FENCE whose scope lets
it. -/
def State.noteRead (s : State) (r : Req) (span : Nat × Nat) : State :=
  if r.ord = .plain ∨ s.releases = [] then s
  else
    let near := (s.relsAt span r.act.len).filter (fun x => covers x.scope x.tk r.tk && covers r.scope x.tk r.tk)
    if near.all (fun x => x.writes == []) then s
    else if r.ord.acquires then s.acquire r (near.flatMap (·.writes))
    else s.modAccessor r (fun t =>
      { t with seen := (t.seen ++ near.flatMap (fun x => x.writes.map (fun i => (r.scope, x.tk, i)))).eraseDups })

/-! ### Results -/

/-- The value of a load from its bytes (R217). -/
def loadVal (n : Nat) (signed : Bool) (bs : Sparse Byte) : Nat :=
  let x := leNat ((List.range n).map (fun i => Sparse.getD bs i 0))
  if signed then wrapTo (intOf x (8 * n) true) 32 else x

/-- Bytes written into a buffer from a position. -/
def putBytes (m : Sparse Byte) (at_ : Nat) : List Byte → Sparse Byte
  | [] => m
  | b :: r => putBytes (Sparse.set m at_ b) (at_ + 1) r

/-- A window that receives bytes from its access; with the last of them its value is known. -/
def Pend.gets (p : Pend) (part : Nat) (bs : List Byte) (mark : Option FaultMark) : Pend :=
  let buf := putBytes p.buf part bs
  let full := decide (buf.length ≥ p.need)
  let v := match p.kind with | .load n sg => loadVal n sg buf | _ => loadVal p.need false buf
  { p with
    buf := buf, mark := match p.mark with | some m => some m | none => mark
    vals := if full then destVals p.regs v else p.vals, ready := p.ready || full }

/-- Gives bytes to a window of a thread, in its speculation snapshot as well (R36). -/
def State.deliverTo (s : State) (tk pend part : Nat) (bs : List Byte) (mark : Option FaultMark) : State :=
  let g (t : Thread) : Thread :=
    { t with pends := t.pends.map (fun p => if p.id = pend then p.gets part bs mark else p) }
  s.modSnapped tk g

/-- A deferred report reaches a thread (R401): dropped and logged if it has exited. One that is blocked leaves its wait at
once (R422). -/
def State.report (s : State) (tk : Nat) (i : TrapInfo) : State :=
  match s.thread? tk with
  | none => s.log 1
  | some t =>
    if t.exited then s.log 1
    else (s.setThread tk { t with reports := t.reports ++ [⟨i.cause, i.tval, i.tinfo⟩] }).leaveWait tk

/-! ### Scratchpads -/

/-- The block that a copy names, if it is still the sender's quilt member (R399): the same launch and quilt. -/
def State.copyBlock (s : State) (tk : Nat) (c : Nat × Nat × Nat) : Option Block :=
  match s.block? (bkOf c.1 c.2.1), s.block? (tkBk tk) with
  | some d, some b =>
    if d.launch = b.launch ∧ d.blk / b.desc.quilt = b.blk / b.desc.quilt ∧ !d.doubleFault then some d else none
  | _, _ => none

/-- Bytes of a core's scratchpad. -/
def State.scrBytes (s : State) (core o n : Nat) : List Byte := Memory.readRun (s.core core).scratch o n
/-- Poison of a scratchpad granule among bytes. -/
def State.scrPoisonIn (s : State) (core o n : Nat) : Option Nat :=
  ((List.range n).filterMap (fun i => Sparse.get? (s.core core).scrPoison ((o + i) / 16))).head?
/-- Writes bytes of a core's scratchpad; whole granules lose their poison (R404). -/
def State.setScr (s : State) (core o : Nat) (bs : List Byte) : State :=
  s.modCore core (fun c =>
    { c with scratch := Memory.writeN c.scratch o bs, scrPoison := clearPoison c.scrPoison o bs.length })

/-- The orphan-write counter of the quilt of a thread's block rises (R400), kept alike at each member that still lives. -/
def State.countOrphan (s : State) (tk : Nat) : State :=
  match s.block? (tkBk tk) with
  | none => s
  | some b =>
    { s with blocks := Sparse.mapVals s.blocks (fun _ d =>
        if d.launch = b.launch ∧ d.blk / d.desc.quilt = b.blk / b.desc.quilt then
          { d with orphans := min (b.orphans + 1) 0xFFFFFFFF } else d) }

/-- An orphan write (R400): the copy is dropped and counted, and an armed one is reported. -/
def State.orphan (s : State) (r : Req) (armed : Bool) : State :=
  if armed then (s.countOrphan r.tk).report r.tk r.trap else s.countOrphan r.tk

/-- What a read-modify-write makes of the old value: the new value, if one is written, and flags (R221, R225). -/
def rmwNew (act : Action) (old : Nat) : Option Nat × FlagWord :=
  match act with
  | .rmw op w b _ => let (v, fl) := redOp op w old b; (some v, fl)
  | .cas _ x y => (if old = x then some y else none, 0)
  | _ => (none, 0)

/-- The mark of poisoned data (R402, R404). -/
def poisonMark (o : Option Nat) : Option FaultMark := o.map (fun x => ⟨0x14, x⟩)

/-- Whether an access is still to be acknowledged or returned once it is performed. -/
def Req.stays (r : Req) : Bool := r.counted || r.pend.isSome || (match r.act with | .refill _ => true | _ => false)

/-- The access is performed: it leaves flight unless it is still to be acknowledged or returned. -/
def State.finish (s : State) (r : Req) : State :=
  if r.stays then { s with reqs := s.reqs.map (fun e => if e.id = r.id then { e with stage := .done, place := match e.place with | .scr _ => .scr [] | p => p } else e) }
  else { s with reqs := s.reqs.filter (fun e => e.id != r.id) }

/-- Bytes and poison that an access reads are given to its window; a refill keeps them until it is returned (R190). -/
def State.give (s : State) (r : Req) (bs : List Byte) (po : Option Nat) : State :=
  match r.act with
  | .refill _ => { s with reqs := s.reqs.map (fun e => if e.id = r.id then { e with got := bs } else e) }
  | _ => match r.pend with
    | some p => s.deliverTo r.tk p r.part bs (poisonMark po)
    | none => s

/-- A read-modify-write at its ordering point: `rd` the old bytes, `po` their poison, `wr` how the new bytes are written
(R221, R223, R225, R404). -/
def State.doAtomic (s : State) (r : Req) (rd : List Byte) (po : Option Nat) (wr : State → List Byte → State) : State :=
  let ret := r.pend.isSome
  match po with
  | some o =>
    let s1 := s.give r rd (some o)
    (if r.counted && !ret then s1.report r.tk { r.trap with cause := 0x14, tinfo := r.trap.tinfo % 2 ^ 16 + o * 2 ^ 16 } else s1).finish r
  | none =>
    let (nv, fl) := rmwNew r.act (leNat rd)
    let s1 := match nv with | some v => wr s (leBytes r.act.len v) | none => s
    let s2 := (s1.landFlags r.tk r.home fl).give r rd none
    s2.finish r

/-- One copy of a scratchpad access is performed at its destination (R69, R70, R399, R400, R404); each copy of a mirrored store has
a time of its own (R106, log 16). -/
def State.performScr (s : State) (r : Req) : State :=
  match r.place with
  | .scr (c :: rest) =>
    let drop (s : State) : State :=
      if rest = [] then s.finish r
      else { s with reqs := s.reqs.map (fun e =>
        if e.id = r.id then { e with place := .scr rest, due := s.hopDue e rest.length 0 } else e) }
    match s.copyBlock r.tk c with
    | none =>
      match r.act with
      | .store _ => drop (s.orphan r (r.ord != .plain))
      | .rmw _ _ _ false => drop (s.orphan r true)
      | _ => drop (match r.pend with
        | some p => s.deliverTo r.tk p r.part (leBytes r.act.len 0) (some ⟨0x07, 2⟩)
        | none => s)
    | some d =>
      let o := d.spbase + c.2.2
      let span := scrSpan c
      match r.act with
      | .store bs => drop (s.placeWrite (precedence 3 (s.reqRank r.tk)) (1 + c.1) o bs (fun s x l =>
          (s.setScr c.1 x l).noteWrite r (span.1, span.2 + x - o) l.length))
      | .load n => drop ((s.noteRead r span).give r (s.scrBytes c.1 o n) (s.scrPoisonIn c.1 o n))
      | .refill _ => drop s
      | _ =>
        let n := r.act.len
        let s1 := s.noteRead r span
        s1.doAtomic r (s1.scrBytes c.1 o n) (s1.scrPoisonIn c.1 o n)
          (fun s bs => (s.setScr c.1 o bs).noteWrite r span n)
  | _ => s

/-- Changes the access of an identity by a step of the machine, if it is in flight. -/
def State.onReq (s : State) (id : Nat) (g : State → Req → State) : State :=
  match s.reqs.find? (fun r => r.id = id) with
  | some r => g s r
  | none => s
/-- An access goes on by one step, behind those of its mates that come before it (R218, R223), when it may. -/
def State.goOn (s : State) (id : Nat) (g : State → Req → State) : State :=
  s.onReq id (fun s r => if s.mayPerform r then (s.batch r).foldl (fun s i => s.onReq i g) s else s)

/-- SCRATCHPAD_PEER_ACCESS (R68 to R70): the next copy of an access is performed, when it may be. -/
def State.peerAccess (s : State) (id : Nat) : State := s.goOn id State.performScr

/-! ### Home slices (R60, R63, R95, R97) -/

/-- Whether the inbound filter of another device refuses an access (R315): what its entries hold is its own, a free value. -/
def State.refusedThere (s : State) (r : Req) (pa : Nat) : Bool := paDev pa != s.devno && !Config.remotePasses r.id pa

/-- The deferred report of a store or reduction that another device refuses (R315). -/
def State.reportRefused (s : State) (r : Req) : State :=
  s.report r.tk { r.trap with cause := 0x05, tinfo := r.trap.tinfo % 2 ^ 16 + 5 * 2 ^ 16 }

/-- Eight bytes of the spill area become unspecified (R190). -/
def State.voidWord (s : State) (pa : Nat) : State := ((List.range 8).foldl (fun s i => s.voidByte (pa + i)) s).bumpFresh
/-- A refill that meets poison (R404): the entry's value is free and the thread takes a report (log 19). -/
def State.badRefill (s : State) (r : Req) (pa o : Nat) : State :=
  ((s.give r ((List.range 8).map (fun i => Config.spillByte s.fresh (pa + i))) none).report r.tk
    { r.trap with tinfo := r.trap.tinfo % 2 ^ 16 + o * 2 ^ 16 }).bumpFresh.finish r

/-- An access that another device refuses (R315): poison of ORIGIN 5 where it would return data, else a report; it is acknowledged. -/
def State.performRefused (s : State) (r : Req) (pa : Nat) : State :=
  match r.act with
  | .refill _ => s.badRefill r pa 5
  | _ => (if r.pend.isSome then s.give r (List.replicate r.act.len 0) (some 5)
    else if r.act.writes then s.reportRefused r else s).finish r

/-- A DRAM access is performed at its home slice (R63 to R67, R97, R223, R404, R415). -/
def State.performHome (s : State) (r : Req) : State :=
  match r.place with
  | .dram pa unc =>
    let from_ := tkCore r.tk / 4
    let span := (0, pa)
    let cut := s.unreachable from_ pa
    let po (n : Nat) : Option Nat := match cut with | some o => some o | none => s.poisonIn pa n
    if cut.isNone && s.refusedThere r pa then s.performRefused r pa
    else match r.act with
    | .store bs =>
      let s1 := if cut.isSome then s else s.placeWrite (precedence 3 (s.reqRank r.tk)) 0 pa bs (fun s x l =>
        (s.writeHome x l unc from_).noteWrite r (0, x) l.length)
      s1.finish r
    | .load n =>
      let s1 := if cut.isSome then s else (s.touchHome pa unc (tkCore r.tk)).noteRead r span
      (s1.give r (s1.readHome pa n) (po n)).finish r
    | .refill _ =>
      let s1 := if cut.isSome then s else s.touchHome pa unc (tkCore r.tk)
      match po 8 with
      | some o => s1.badRefill r pa o
      | none => ((s1.give r (s1.readHome pa 8) none).finish r).voidWord pa
    | _ =>
      let n := r.act.len
      let s1 := (if cut.isSome then s else s.atomHome pa unc from_).noteRead r span
      s1.doAtomic r (s1.readHome pa n) (po n) (fun s bs => (s.writeHome pa bs unc (paSite pa)).noteWrite r span n)
  | _ => s

/-- Changes an access in flight. -/
def State.modReq (s : State) (id : Nat) (g : Req → Req) : State :=
  { s with reqs := s.reqs.map (fun r => if r.id = id then g r else r) }

/-- An access sets out on the request mesh towards a slice, the site controller or the Hem station. -/
def State.toMesh (s : State) (r : Req) (pa : Nat) : State :=
  let x := s.site (tkCore r.tk / 4)
  let path := (x.meshPath 0 (.core (tkCore r.tk % 4)) (s.meshGoal r pa)).length
  s.modReq r.id (fun e => { e with stage := .mesh, seq := s.clk, due := s.hopDue r 1 path })

/-- The Hem station or the scale-up port accepts an access; for a write to DRAM it first drops its own site's copy of the line
(Table 5.4). -/
def State.toHem (s : State) (r : Req) (pa : Nat) : State :=
  let site := tkCore r.tk / 4
  let s1 := if r.act.writes && !r.place.isDev then s.dropCopy pa site else s
  s1.modReq r.id (fun e =>
    { e with
      stage := .hem, seq := s.clk, hem := if r.hem.isSome then r.hem else some s.clk, due := s.hopDue r 2 (hopCycles (s.routeOf r pa)) })

/-- An access leaves the Hem at another site of this device and sets out on the request mesh there (R10, R12). -/
def State.toFar (s : State) (r : Req) (pa : Nat) : State :=
  let path := ((s.site (paSite pa)).meshPath 0 (hemExit (s.routeOf r pa)) (s.unitAt r.place pa)).length
  s.modReq r.id (fun e => { e with stage := .far, seq := s.clk, due := s.hopDue r 3 path })

/-- Whether a request to DRAM carries another GEN than its home slice holds for the domain that routed it (R60). -/
def State.genStale (s : State) (r : Req) (pa : Nat) : Bool :=
  !r.place.isDev && s.ownDram pa && r.gen != (s.site (paSite pa)).gen r.dom

/-- An access comes to the unit that answers it: it is performed by `g`, or answered with a retry (R60). -/
def State.arrive (g : State → Req → State) (s : State) (r : Req) (pa : Nat) : State :=
  if s.genStale r pa then s.modReq r.id (fun e => { e with stage := .retry }) else g s r

/-- An access goes on by one stage: onto the request mesh, to the Hem station or the scale-up port where it leaves the site
(Table 5.4), over the mesh of the other site, and to the unit that answers it. -/
def State.nextStage (g : State → Req → State) (s : State) (r : Req) : State :=
  match r.place.pa? with
  | none => s
  | some pa => match r.stage with
    | .held => s.toMesh r pa
    | .mesh => if s.leavesSite r then s.toHem r pa else s.arrive g r pa
    | .hem => if paDev pa = s.devno then s.toFar r pa else s.arrive g r pa
    | .far => s.arrive g r pa
    | .retry | .done => s

/-- GEN_RETRY (R60): the sender reads the current map and sends the request again. -/
def State.genRetry (s : State) (id : Nat) : State :=
  s.modReq id (fun r =>
    match r.place, r.stage with
    | .dram pa _, .retry => { r with stage := .mesh, seq := s.clk, gen := s.genOfPa pa, dom := s.domainOfPa pa }
    | _, _ => r)

/-- STORE_ACKNOWLEDGE (R202, R219): a performed store leaves flight; the last piece of an instruction lowers %pst. -/
def State.acknowledge (s : State) (id : Nat) : State :=
  match s.reqs.find? (fun r => r.id = id) with
  | none => s
  | some r =>
    if r.counted ∧ r.stage = .done then
      let s1 := { s with reqs := s.reqs.filter (fun e => e.id != id) }
      if s1.reqs.any (fun e => e.group == r.group && e.tk == r.tk && e.counted) then s1
      else s1.modThread r.tk (fun t => { t with pst := t.pst - 1 })
    else s

/-! ### Results reach their registers (R31, R387, R402) -/

/-- One 32-bit register of a window is written in a cycle of the core; where an interlocked instruction of the window is to write
it later, that value is the last in time and stays (R31). -/
def Thread.land1 (t : Thread) (now : Nat) (p : Pend) (reg : Nat) : Thread :=
  match Sparse.get? p.vals reg with
  | none => t
  | some x =>
    let t1 := if now < Sparse.getD p.overAt reg 0 then t else
      let u := t.setReg reg x
      match p.mark with | some m => { u with marks := Sparse.set u.marks reg m } | none => u
    let left := p.regs.filter (· != reg)
    { t1 with pends := t1.pends.map (fun q => if q.id = p.id then { q with regs := left } else q) }

/-- A predicate result of VOTE is written, unless an interlocked instruction of the window is to write it later (R31). -/
def Thread.landPred (t : Thread) (now : Nat) (p : Pend) : Thread :=
  match p.pred with
  | some i =>
    let t1 := if now < p.predOver then t else t.setPred i p.pval
    { t1 with pends := t1.pends.map (fun q => if q.id = p.id then { q with pred := none } else q) }
  | none => t

/-- A window with nothing left to write is closed. -/
def Thread.closeDone (t : Thread) : Thread :=
  { t with pends := t.pends.filter (fun p => !(p.ready && p.regs == [] && p.pred.isNone)) }

/-- Writes register `reg` (or the predicate) of window `pend` of a thread, if its value is known. -/
def Thread.land (t : Thread) (now pend reg : Nat) : Thread :=
  match t.pends.find? (fun p => p.id = pend) with
  | some p =>
    if p.ready then ((if p.regs = [] then t.landPred now p else t.land1 now p reg)).closeDone else t
  | none => t

/-- A register that a landing result writes leaves the operand latch of its stitch (R30). -/
def State.dropLatch (s : State) (tk reg : Nat) : State :=
  let gone (e : Latch) : Bool := e.regs.contains reg && e.members.contains tk
  if (s.slice (tkCore tk) (sliceOfThr (tkThr tk))).latch.any gone then
    s.modSlice (tkCore tk) (sliceOfThr (tkThr tk)) (fun x => { x with latch := x.latch.filter (fun e => !gone e) })
  else s

/-- A refill is returned (R190): the entry holds the value pushed, or, where software has written the spill area, perhaps the value
in memory. -/
def State.landRefill (s : State) (tk id : Nat) : State :=
  match s.reqs.find? (fun r => r.id = id) with
  | some r =>
    match r.act, r.stage with
    | .refill j, .done =>
      let v : DWord := BitVec.ofNat 64 (leNat r.got)
      ({ s with reqs := s.reqs.filter (fun e => e.id != id) }.modThread tk (fun t =>
        let keep := Sparse.getD t.ret j 0
        { t with
          refill := none
          ret := Sparse.set t.ret j (if v = keep ∨ !Config.refillFromMemory s.fresh then keep else v) })).bumpFresh
    | _, _ => s
  | none => s

/-- The accesses of a window that the thread no longer holds have returned. -/
def State.returned (s : State) (tk pend : Nat) : State :=
  match s.thread? tk with
  | some t =>
    if t.pends.any (fun p => p.id == pend) then s
    else { s with reqs := s.reqs.filter (fun r => !(r.tk == tk && r.pend == some pend && r.stage == .done)) }
  | none => s

/-- LONG_LATENCY_RESULT (R31, R36, R389): a result is written to its register, in a speculation snapshot too; the flags
that come with it are raised with its first register (R168); a trap that waited for the window is taken when none is left
(R351); a refill goes to the return stack (R190). -/
def State.land (s : State) (tk pend reg : Nat) : State :=
  match s.thread? tk with
  | none => s
  | some t =>
    match t.pends.find? (fun p => p.id = pend) with
    | none => if t.refill = some pend then s.landRefill tk pend else s
    | some p =>
      if !p.ready then s
      else
        let clear (x : Thread) : Thread :=
          { x with pends := x.pends.map (fun q => if q.id = pend then { q with flags := 0 } else q) }
        let inSpec := match Sparse.get? s.ckpts tk with
          | some c => c.pends.any (fun q => q.id == pend)
          | none => false
        let now := s.now (tkCore tk)
        let s1 := s.setThread tk ((clear t).land now pend reg)
        let s2 := match Sparse.get? s.ckpts tk with
          | some c => { s1 with ckpts := Sparse.set s1.ckpts tk ((clear c).land now pend reg) }
          | none => s1
        let s3 := if inSpec || t.spec.isNone then (s2.landFlags tk p.home p.flags).modThread tk (·.hasSet now p.home p.flags) else s2.raiseFlags tk p.home p.flags now
        let s4 := (s3.returned tk pend).settleTrap tk
        if p.regs.contains reg then s4.dropLatch tk reg else s4

end Sys2Proof.Machine
end

