-- ==== Sys2Proof/Machine/Control.lean ====
section
/-!
DEFINITION. Class 011 (chapter 09): branches with active-mask prediction (R33 to R36), calls and the return stack (R190),
skein instructions, byte barriers (R198 to R200), seams (R201) and waits; and MOVSR and LDKX of class 000.
-/
namespace Sys2Proof.Machine

/-! ### Branches (R33 to R36, R187, R188) -/

/-- The target of BRA and CALL (R188, R189). -/
def relTarget (pc : BitVec 56) (f : Fields) : BitVec 56 := pc + 12#56 + f.imm.signExtend 56

/-- The predictor index PC[12:2] (R33). -/
def predIndex (pc : BitVec 56) : Nat := pc.toNat / 4 % 2048
/-- Set bits of a lane mask. -/
def popCount32 (m : BitVec 32) : Nat := popCount m.toNat 32

/-- The predicted taken set (Table 2.3); none without a prediction. -/
def predict (h : Hint) (e : Predictor) (m : BitVec 32) : Option (BitVec 32) :=
  match h with
  | .pred => if e.conf ≥ 2 then some (e.last &&& m) else none
  | .unif => some (if 2 * popCount32 (e.last &&& m) > popCount32 m then m else 0)
  | _ => none

/-- The predictor entry after a resolution (R35). -/
def Predictor.update (e : Predictor) (br : Branch) : Predictor :=
  let hit : Bool := match br.pred with | some p => p == br.taken | none => br.last == br.taken
  { last := (e.last &&& ~~~br.mask) ||| (br.taken &&& br.mask)
    conf := if hit then min (e.conf + 1) 3 else e.conf - 1 }

/-- A lane as a bit. -/
def laneBit (tk : Nat) : BitVec 32 := 1#32 <<< laneOfThr (tkThr tk)

/-- A thread goes down a predicted path (R34): its state before the path is kept. -/
def State.speculate (s : State) (id : Nat) (target fall : BitVec 56) (p : BitVec 32) (tk : Nat) : State :=
  match s.thread? tk with
  | some t =>
    let taken := p &&& laneBit tk != 0
    let t1 := t.retireTo (if taken then target else fall)
    { s with ckpts := Sparse.set s.ckpts tk t1 }.setThread tk { t1 with spec := some ⟨id, 0, taken, [], none⟩ }
  | none => s

/-- The members that take part in a conditional branch: those with no trap waiting and not on a speculative path. -/
def State.branchers (s : State) : List Nat :=
  s.cur.members.filter (fun tk =>
    match s.thread? tk with
    | some t => !t.exited && (nextTrap t).isNone && t.spec.isNone && t.pcTop == 0
    | none => false)

/-- A branch whose predicate is in flight: recorded with every member's actual next PC; counters 4 (R207) counts one with a
prediction. -/
def State.openBranch (s : State) (f : Fields) (hint : Hint) (tks : List Nat) (nextOf : Nat → BitVec 56 × Bool)
    (predicted : Bool) : State :=
  let c := s.cur
  let m := tks.foldl (fun a tk => a ||| laneBit tk) 0#32
  let a := tks.foldl (fun a tk => if (nextOf tk).2 then a ||| laneBit tk else a) 0#32
  let e := Sparse.getD (s.slice c.core c.slice).predictor (predIndex c.pc) ⟨0, 0⟩
  let p := if predicted then predict hint e m else none
  let br : Branch :=
    { id := s.nextId, issue := c.id, core := c.core, slice := c.slice, pc := c.pc, mask := m, taken := a, pred := p, last := e.last &&& m
      members := tks.map (fun tk => (tk, (nextOf tk).1, (nextOf tk).2)), due := s.due c.core 4 }
  let s1 := ({ s with branches := s.branches ++ [br] }.bumpId).bumpFresh
  match p with
  | some ps =>
    let s2 := s1.modSlice c.core c.slice (fun x => { x with counters := Sparse.modify x.counters 4 0 (· + 1) })
    tks.foldl (fun s tk => s.speculate br.id (relTarget c.pc f) (pcNext c.pc) ps tk) s2
  | none => tks.foldl (fun s tk => s.waitFor tk (.branch br.id)) s1

/-- BRA (R188): under p0 every member goes to the target, under (!p0) none; under any other guard it is conditional. -/
def execBra (f : Fields) (s : State) : Out :=
  if !condGuard f then .next (issueAll .bra f (fun tk t _ s => s.setThread tk (t.retireTo (relTarget t.pc f))) s)
  else
    let bad (tk : Nat) : Bool := match s.thread? tk, s.block? (tkBk tk) with
      | some t, some b => guardOf t f && (rejection .bra Op.bra.code.toNat t b f).isSome
      | _, _ => true
    let tks := s.branchers.filter (fun tk => !bad tk)
    let rest := s.cur.members.filter (fun tk => !tks.contains tk)
    let s1 := rest.foldl (issueThread .bra f (fun _ _ _ s => s)) s
    if tks = [] then .next s1
    else
      let nextOf (tk : Nat) : BitVec 56 × Bool := match s.thread? tk with
        | some t => if guardOf t f then (relTarget t.pc f, true) else (pcNext t.pc, false)
        | none => (0, false)
      .next (s1.openBranch f f.bh tks nextOf true)

/-- Discards a speculative path (R35, R36): registers, predicates, marks, windows and what its reads found are as in the
snapshot; its loads count as no access, a walk that failed on it is forgotten, and a report that came meanwhile is heard (R422); the thread is re-inserted at its actual target one slice cycle later. -/
def State.discardPath (s : State) (tk : Nat) (t : Thread) (next : BitVec 56) : State :=
  match Sparse.get? s.ckpts tk with
  | some c =>
    let t1 : Thread := { t with
      v := c.v, p := c.p, h := c.h, marks := c.marks, pends := c.pends, readyAt := c.readyAt, predAt := c.predAt
      bankAt := c.bankAt, hb := c.hb, seen := c.seen, ordered := c.ordered, sleepAt := c.sleepAt
      walkFail := none, pc := next, pcTop := 0, spec := none, wait := .replay (s.now (tkCore tk) + 1), waitSince := s.clk, replayed := true }
    let gone (r : Req) : Bool := r.tk == tk && !r.act.writes &&
      (match r.pend with | some p => !(c.pends.any (fun q => q.id == p)) | none => false)
    { s with reqs := s.reqs.filter (fun r => !gone r), ckpts := Sparse.erase s.ckpts tk }.setThread tk t1 |>.leaveWait tk
  | none => s.setThread tk { t with spec := none, pc := next, wait := .none }

/-- A right path (R35): it keeps its results; the flags and the trap it held back take effect now (R34), flags whose result is
still to be written with it (R168). -/
def State.keepPath (s : State) (tk : Nat) (t : Thread) (p : SpecPath) : State :=
  let s1 := { s with ckpts := Sparse.erase s.ckpts tk }.setThread tk
    { t with
      spec := none, flagsDue := t.flagsDue ++ p.flags
      wait := match t.wait with | .specEnd => .none | .specPort => .access | w => w }
  let s2 := s1.setFlags tk (fun d => decide (d ≤ s.now (tkCore tk)))
  match p.trap with
  | some (i, group) => s2.takeTrap tk i group false
  | none => s2

/-- What a resolution does for one member. -/
def State.resolveOne (br : Branch) (s : State) (m : Nat × BitVec 56 × Bool) : State :=
  match s.thread? m.1 with
  | none => s
  | some t =>
    match t.spec with
    | some p => if p.branch = br.id then (if p.taken = m.2.2 then s.keepPath m.1 t p else s.discardPath m.1 t m.2.1) else s
    | none => if t.wait = .branch br.id then s.setThread m.1 (t.retireTo m.2.1) else s

/-- The predictor entry of a resolved branch is updated, and counter 5 counts the lanes that replay (R35, R207). -/
def State.noteOutcome (s : State) (br : Branch) : State :=
  let wrong := match br.pred with | some p => popCount32 ((p ^^^ br.taken) &&& br.mask) | none => 0
  s.modSlice br.core br.slice (fun x =>
    { x with
      predictor := Sparse.modify x.predictor (predIndex br.pc) ⟨0, 0⟩ (·.update br)
      counters := if wrong = 0 then x.counters else Sparse.modify x.counters 5 0 (· + wrong) })

/-- BRANCH_RESOLUTION (R34, R35, R187, R344): with a prediction, right lanes go on and wrong ones replay; without one the
entry is updated, and the members are inserted one cycle later. A guarded JMPI, CALL, CALLI or RET has no entry (mask 0). -/
def State.resolve (s : State) (id : Nat) : State :=
  match s.branches.find? (fun b => b.id = id) with
  | none => s
  | some br =>
    if br.pred.isNone && br.mask != 0 then
      let later (b : Branch) : Branch := if b.id = id then { b with mask := 0, due := s.now br.core + 1 } else b
      { s with branches := s.branches.map later }.noteOutcome br
    else
      let s1 := br.members.foldl (State.resolveOne br) { s with branches := s.branches.filter (fun b => b.id != id) }
      if br.pred.isSome then s1.noteOutcome br else s1

/-! ### Calls and returns (R189, R190, R360) -/

/-- SpillAddr(j) (R190). -/
def spillAddr (b : Block) (thr j : Nat) : Nat := (b.tlBase thr + b.desc.loc + 8 * j + 2 ^ 64 - 8) % 2 ^ 64

/-- The request of a spill or refill (Table 23.1). -/
def spillAsk (opc : Nat) (w : Bool) : PortAsk :=
  { opc := opc, n := 8, w := w, align := none, rmw := false, space := 4, sz := 3, mirror := false }

/-- The wait of a guarded indirect branch, call or return (R187): the effect is made, and the thread goes on at the resolution,
which is one for its stitch, so that members with equal targets stay together (R189). An unguarded one goes on at once. -/
def State.goTo (s : State) (f : Fields) (tk : Nat) (t : Thread) (pc : BitVec 56) : State :=
  if condGuard f then
    match s.branches.find? (fun b => b.issue == s.cur.id && b.mask == 0 && b.pc == t.pc) with
    | some br =>
      let join (b : Branch) : Branch := if b.id = br.id then { b with members := b.members ++ [(tk, pc, true)] } else b
      ({ s with branches := s.branches.map join }.setThread tk t).waitFor tk (.branch br.id)
    | none =>
      let br : Branch :=
        { id := s.nextId, issue := s.cur.id, core := tkCore tk, slice := sliceOfThr (tkThr tk), pc := t.pc, mask := 0, taken := 0
          pred := none, last := 0, members := [(tk, pc, true)], due := s.due (tkCore tk) 5 }
      ((({ s with branches := s.branches ++ [br] }.bumpId).bumpFresh).setThread tk t).waitFor tk (.branch br.id)
  else s.setThread tk (t.retireTo pc)

/-- An indirect target out of its limits (R384): SUB 7, FIELD 7. -/
def badTarget (op : Op) (t : Nat) : Option TrapInfo :=
  if t / 2 ^ 56 ≠ 0 ∨ t % 4 ≠ 0 then some (rejectInfo op.code.toNat 7 7 t) else none

/-- JMPI on one thread (R189). -/
def jmpiBody (f : Fields) (tk : Nat) (t : Thread) (b : Block) (s : State) : State :=
  let x := opndA .jmpi t b f
  match badTarget .jmpi x with
  | some i => s.takeTrap tk i s.cur.id false
  | none => s.goTo f tk t (BitVec.ofNat 56 x)

/-- The memory word of a return-stack entry that the hardware comes to hold becomes unspecified (R190); where it has no place that
the thread may write, there is none. -/
def State.voidSpill (s : State) (tk : Nat) (b : Block) (ea : Nat) : State :=
  let vpns := [ea / 65536, (ea + 7) / 65536].eraseDups
  let es := vpns.filterMap (fun v => if v ≥ 2 ^ 40 then none else match s.walkAt (tkCore tk) b.asid (v * 65536) with
    | .ok e => if e.mt != 2 && e.w && (b.asid == 0 || e.u) then some (v, e) else none
    | .fail _ _ => none)
  ((List.range 8).foldl (fun s i => match es.find? (fun x => x.1 == (ea + i) / 65536) with
    | some x => s.voidByte (x.2.pa (ea + i))
    | none => s) s).bumpFresh

/-- Push and go (R190, R360): a push at depth 8 or more first spills entry Dp − 7. -/
def State.callTo (s : State) (op : Op) (f : Fields) (tk : Nat) (t : Thread) (b : Block) (pc : BitVec 56) : State :=
  let thr := tkThr tk
  if t.depth ≥ 1024 then s.takeTrap tk ⟨0x11, spillAddr b thr 1025, 0⟩ s.cur.id false
  else
    let t1 (t : Thread) : Thread :=
      { t with depth := t.depth + 1, ret := Sparse.set t.ret (t.depth + 1) ((pcNext t.pc).setWidth 64), walkFail := none }
    let held := spillAddr b thr (t.depth + 1)
    if t.depth < 8 then (s.voidSpill tk b held).goTo f tk (t1 t) pc
    else
      let j := t.depth - 7
      let ea := spillAddr b thr j
      let q := spillAsk op.code.toNat true
      s.atGlobal tk t b q ea (fun s ps =>
        let s := s.voidSpill tk b held
        let s1 := s.setThread tk { t with pst := t.pst + 1 }
        let s2 := ps.foldl (storePiece tk t b .plain .sk s1.nextId ⟨0x07, ea, q.tinfo ea 3⟩
          (leBytes 8 (Sparse.getD t.ret j 0).toNat)) s1
        s2.goTo f tk (t1 { t with pst := t.pst + 1 }) pc)

/-- CALL on one thread (R189). -/
def callBody (f : Fields) (tk : Nat) (t : Thread) (b : Block) (s : State) : State :=
  s.callTo .call f tk t b (relTarget t.pc f)
/-- CALLI on one thread (R189, R384). -/
def calliBody (f : Fields) (tk : Nat) (t : Thread) (b : Block) (s : State) : State :=
  let x := opndA .calli t b f
  match badTarget .calli x with
  | some i => s.takeTrap tk i s.cur.id false
  | none => s.callTo .calli f tk t b (BitVec.ofNat 56 x)

/-- RET on one thread (R189, R190, R360): a pop that leaves 8 or more entries reads entry Dp − 7 back. An address with bits [63:56] set
fails the check of the fetch there (R46). -/
def retBody (f : Fields) (tk : Nat) (t : Thread) (b : Block) (s : State) : State :=
  let thr := tkThr tk
  if t.depth = 0 then s.takeTrap tk ⟨0x11, spillAddr b thr 0, 1⟩ s.cur.id false
  else if t.refill.isSome then s.waitFor tk .refill
  else
    let target := Sparse.getD t.ret t.depth 0
    let pc : BitVec 56 := target.setWidth 56
    let t1 : Thread := { t with
      depth := t.depth - 1, ret := Sparse.erase t.ret t.depth, walkFail := none, pcTop := target.toNat / 2 ^ 56 }
    if t1.depth < 8 then s.goTo f tk t1 pc
    else
      let j := t1.depth - 7
      let ea := spillAddr b thr j
      let q := spillAsk 0x64 false
      s.atGlobal tk t b q ea (fun s ps =>
        match ps with
        | p :: _ =>
          let r := s.newReq tk t b (.refill j) p .plain .sk none s.nextId false ⟨0x14, ea, q.tinfo ea 0⟩
          (s.addReq r).goTo f tk { t1 with refill := some r.id } pc
        | [] => s)

/-- A member whose guard is false waits for its guard to resolve like the others (R187). -/
def fallMember (op : Op) (f : Fields) (body : Nat → Thread → Block → State → State) (s : State) (tk : Nat) : State :=
  match s.thread? tk with
  | some t =>
    if condGuard f && !t.exited && (nextTrap t).isNone && t.spec.isNone && t.pcTop == 0 && !guardOf t f then s.goTo f tk t (pcNext t.pc)
    else issueThread op f body s tk
  | none => s

/-- JMPI, CALL, CALLI and RET issued for every member of the stitch. -/
def issueJump (op : Op) (f : Fields) (body : Nat → Thread → Block → State → State) (s : State) : State :=
  s.cur.members.foldl (fallMember op f body) s

/-- JMPI (R189). -/
def execJmpi (f : Fields) (s : State) : Out := .next (issueJump .jmpi f (jmpiBody f) s)
/-- CALL (R189). -/
def execCall (f : Fields) (s : State) : Out := .next (issueJump .call f (callBody f) s)
/-- CALLI (R189). -/
def execCalli (f : Fields) (s : State) : Out := .next (issueJump .calli f (calliBody f) s)
/-- RET (R189). -/
def execRet (f : Fields) (s : State) : Out := .next (issueJump .ret f (retBody f) s)
/-- EXIT (R191). -/
def execExit (f : Fields) (s : State) : Out := .next (issueAll .exit f (fun tk _ _ s => s.exitThread tk) s)
/-- The issue-permitted cycles that the slice of a thread has had (counter 0, R207). -/
def State.permitted (s : State) (tk : Nat) : Nat :=
  Sparse.getD (s.slice (tkCore tk) (sliceOfThr (tkThr tk))).counters 0 0
/-- YIELD (R192): the thread is not ready in the next issue-permitted cycle. -/
def execYield (f : Fields) (s : State) : Out :=
  .next (issueAll .yield f (fun tk t _ s => s.setThread tk { t.retire with wait := .yielded (s.permitted tk), waitSince := s.clk }) s)
/-- SLEEP on one thread (R192): SLEEP 0 acts as NOP. -/
def sleepBody (f : Fields) (tk : Nat) (t : Thread) (_ : Block) (s : State) : State :=
  if f.imm = 0 then s.setThread tk t.retire
  else s.setThread tk { t.retire with sleepAt := s.clk + f.imm.toNat, wait := .sleep, waitSince := s.clk }
/-- SLEEP (R192). -/
def execSleep (f : Fields) (s : State) : Out := .next (issueAll .sleep f (sleepBody f) s)

/-! ### Skeins (R193 to R197) -/

/-- SKJOIN (R193). -/
def execSkjoin (f : Fields) (s : State) : Out := .next (issueAll .skjoin f (joinBody f) s)
/-- SKLEAVE (R193). -/
def execSkleave (f : Fields) (s : State) : Out := .next (issueAll .skleave f (leaveBody f) s)
/-- BAR (R194). -/
def execBar (f : Fields) (s : State) : Out := .next (issueAll .bar f (arriveBody .bar f (s.arrivingLanes .bar f)) s)
/-- VOTE (R195, R196). -/
def execVote (f : Fields) (s : State) : Out := .next (issueAll .vote f (arriveBody .vote f (s.arrivingLanes .vote f)) s)
/-- BALLOT (R195, R196). -/
def execBallot (f : Fields) (s : State) : Out := .next (issueAll .ballot f (arriveBody .ballot f (s.arrivingLanes .ballot f)) s)
/-- SHFL (R195, R196). -/
def execShfl (f : Fields) (s : State) : Out := .next (issueAll .shfl f (arriveBody .shfl f (s.arrivingLanes .shfl f)) s)
/-- SKRED (R195, R196). -/
def execSkred (f : Fields) (s : State) : Out := .next (issueAll .skred f (arriveBody .skred f (s.arrivingLanes .skred f)) s)
/-- SKMATCH (R195, R196). -/
def execSkmatch (f : Fields) (s : State) : Out :=
  .next (issueAll .skmatch f (arriveBody .skmatch f (s.arrivingLanes .skmatch f)) s)
/-- FLAGS (R197). -/
def execFlags (f : Fields) (s : State) : Out := .next (issueAll .flags f (flagsBody s f) s)

/-! ### Byte barriers (R198 to R200, R430, R431) -/

/-- A byte-barrier object (Table 9.3). -/
abbrev BObj := BitVec 128
/-- PENDING. -/
def BObj.pending (o : BObj) : BitVec 40 := o.extractLsb' 0 40
/-- ERR. -/
def BObj.err (o : BObj) : Bool := o.getLsbD 40
/-- EXPECTED. -/
def BObj.expected (o : BObj) : BitVec 16 := o.extractLsb' 48 16
/-- ARRIVED. -/
def BObj.arrived (o : BObj) : BitVec 16 := o.extractLsb' 64 16
/-- PHASE. -/
def BObj.phase (o : BObj) : Bool := o.getLsbD 80
/-- Replaces `n` bits of an object from bit `lo`. -/
def BObj.put (o : BObj) (lo n : Nat) (x : Nat) : BObj :=
  let mask : BitVec 128 := BitVec.ofNat 128 (2 ^ n - 1) <<< lo
  (o &&& ~~~mask) ||| ((BitVec.ofNat 128 x <<< lo) &&& mask)

/-- Complete(O) (R199). The operations but BINIT leave the reserved bits as a plain store left them (log 59). -/
def BObj.complete (o : BObj) : BObj :=
  if o.arrived = o.expected ∧ (o.pending = 0 ∨ o.err) then (o.put 64 16 0).put 80 1 (bit1 (!o.phase)) else o
/-- BINIT (R199, R200): all 16 bytes are written, the reserved bits as zero (Table 9.3). -/
def BObj.init (n : Nat) : BObj := (0 : BObj).put 48 16 n
/-- BEXPECT (R199, R430). -/
def BObj.expect (o : BObj) (n : Nat) : BObj :=
  (if o.err then o else o.put 0 40 (o.pending.toNat + n)).complete
/-- BARRIVE (R199, R431). -/
def BObj.arrive (o : BObj) : BObj :=
  (if o.arrived.toNat < o.expected.toNat then o.put 64 16 (o.arrived.toNat + 1) else o.put 40 1 1).complete
/-- An engine's landing of n bytes (R199, R430). -/
def BObj.landed (o : BObj) (n : Nat) : BObj :=
  (if o.err then o else o.put 0 40 (o.pending - BitVec.ofNat 40 n).toNat).complete
/-- The mark of an abandoned command (R429): ERR set, PENDING 0. -/
def BObj.abandon (o : BObj) : BObj := ((o.put 40 1 1).put 0 40 0).complete

/-- The object at an offset of a core's scratchpad. -/
def State.obj (s : State) (core o : Nat) : BObj := BitVec.ofNat 128 (leNat (s.scrBytes core o 16))
/-- Writes the object at an offset of a core's scratchpad. -/
def State.setObj (s : State) (core o : Nat) (x : BObj) : State := s.setScr core o (leBytes 16 x.toNat)

/-- The checks of a byte-barrier instruction (R199): like a 16-byte scratchpad access, with SUB 2 for alignment. -/
def barrierAsk (op : Op) (w : Bool) : PortAsk :=
  { opc := op.code.toNat, n := 16, w := w, align := some 2, rmw := false, space := 1, sz := 4, mirror := false }

/-- Whether an operation of the block with a number of markers before it must stay behind one, which acts as a FENCE.pkg (R103). -/
def State.behindMarker (s : State) (bk mark : Nat) : Bool :=
  s.reqs.any (fun e => tkBk e.tk == bk && decide (e.mark < mark) && s.reqOwn e && !e.doneAt .pkg true)

/-- Whether an access in flight comes before an operation of a thread on the object at an offset of a block's scratchpad: the thread's
own on those bytes, or an acquire (R95, R98, R100); one on those bytes, or an acquire, that happens-before the operation; or, for an object
reached over the peer path, one of the block to the same peer (R69). -/
def Req.beforeObject (e : Req) (tk : Nat) (t : Thread) (peer : Bool) (c : Nat × Nat × Nat) : Bool :=
  let key := (scrSpan c).1
  let touches := e.place.spans.any (fun y => y.1 == key && decide (y.2 < c.2.2 + 16 ∧ c.2.2 < y.2 + e.act.len))
  (e.tk == tk && (e.ord.acquires || (e.stage != .done && touches))) ||
  (e.stage != .done && ((t.hb.contains e.id && (touches || e.ord.acquires)) || (t.ordered.contains e.id && touches) ||
    (peer && e.peer && tkBk e.tk == tkBk tk && e.place.spans.any (fun y => y.1 == key))))

/-- Whether an operation of a thread on the object at an address must wait: for a marker, or for an access in flight. -/
def State.objectHeld (s : State) (tk : Nat) (t : Thread) (b : Block) (ea : Nat) : Bool :=
  s.behindMarker (tkBk tk) b.marks || s.reqs.any (fun e => e.beforeObject tk t (decide (2 ^ 31 ≤ ea)) (b.scrCopy ea))

/-- A byte-barrier operation on one thread: the checks, what comes before it, then `go` with the object's copy and its place
in that core's scratchpad. -/
def State.onObject (s : State) (op : Op) (w : Bool) (f : Fields) (tk : Nat) (t : Thread) (b : Block)
    (go : Nat × Nat × Nat → Nat → State) : State :=
  let ea := sAddr op t b f
  match b.scrPort (barrierAsk op w) ea with
  | .trap i => s.takeTrap tk i s.cur.id false
  | .miss _ => s
  | .ok _ =>
    if s.objectHeld tk t b ea then s.waitFor tk .marker
    else
      let c := b.scrCopy ea
      match s.block? (bkOf c.1 c.2.1) with
      | some d => go c (d.spbase + c.2.2)
      | none => s.takeTrap tk ⟨0x07, ea, (barrierAsk op w).tinfo ea 1⟩ s.cur.id false

/-- The releases that a relaxed write of a thread to an object carries, those of earlier FENCEs (R99), or with `rel` its own at .stk
(R109). -/
def State.objectRels (s : State) (tk : Nat) (t : Thread) (rel : Bool) : List Release :=
  let xs : List (Scope × List Nat) :=
    if rel then [(.stk, s.ownWrites tk ++ t.hb)] else t.fenced.map (fun x => (Scope.stk.narrow x.1, x.2))
  (xs.map (fun x => ⟨x.1, tk, s.flying x.2⟩)).filter (fun x => x.writes != [])
/-- The releases of an object that reach a thread (R99, R109). -/
def State.objReleases (s : State) (tk : Nat) (c : Nat × Nat × Nat) : List Release :=
  (s.relsAt (scrSpan c) 16).filter (fun x => covers x.scope x.tk tk)
/-- A thread has read an object at .stk: a FENCE later acquires what it found (R99). -/
def Thread.sees (t : Thread) (rs : List Release) : Thread :=
  { t with seen := (t.seen ++ rs.flatMap (fun x => x.writes.map (fun i => (Scope.stk, x.tk, i)))).eraseDups }

/-- BEXPECT and BARRIVE change an object (R199, R200): the write carries the thread's releases. They are
read-modify-writes, which go on with what they read (R99). -/
def State.writeObject (s : State) (tk : Nat) (t : Thread) (c : Nat × Nat × Nat) (o : Nat) (rel : Bool) (x : BObj) : State :=
  ((s.putRels (scrSpan c) 16 true (s.objectRels tk t rel)).setObj c.1 o x).setThread tk (t.retire.sees (s.objReleases tk c))

/-- BINIT on one thread (R199, R384): a plain write of 16 bytes (R97). -/
def binitBody (f : Fields) (tk : Nat) (t : Thread) (b : Block) (s : State) : State :=
  let n := opndB .binit t b f
  if n = 0 ∨ n ≥ 65536 then s.takeTrap tk (rejectInfo Op.binit.code.toNat 8 7 n) s.cur.id false
  else s.onObject .binit true f tk t b (fun c o =>
    (s.placeWrite (precedence 3 (s.reqRank tk)) (1 + c.1) o (leBytes 16 (BObj.init n).toNat) (fun s x l =>
      (s.putRels (1 + bkOf c.1 c.2.1, c.2.2 + x - o) l.length false (s.objectRels tk t false)).setScr c.1 x l)).setThread tk t.retire)
/-- BEXPECT on one thread (R199). -/
def bexpectBody (f : Fields) (tk : Nat) (t : Thread) (b : Block) (s : State) : State :=
  s.onObject .bexpect true f tk t b (fun c o =>
    s.writeObject tk t c o false ((s.obj c.1 o).expect (opndB .bexpect t b f)))
/-- BARRIVE on one thread (R199, R109): with .rel it waits for its writes at .stk and carries the rest on. -/
def barriveBody (f : Fields) (tk : Nat) (t : Thread) (b : Block) (s : State) : State :=
  s.onObject .barrive true f tk t b (fun c o =>
    if f.top3 = 3 ∧ !s.fenceOk tk t .stk then s.waitFor tk (.fence .stk)
    else s.writeObject tk t c o (f.top3 = 3) (s.obj c.1 o).arrive)
/-- BWAIT on one thread (R199, R200, R109). -/
def bwaitBody (f : Fields) (tk : Nat) (t : Thread) (b : Block) (s : State) : State :=
  s.onObject .bwait false f tk t b (fun c o =>
    if (s.obj c.1 o).phase = f.x.getLsbD 0 then
      let rs := s.objReleases tk c
      s.setThread tk (if f.top3 = 2 then { t.retire with hb := (t.hb ++ rs.flatMap (·.writes)).eraseDups } else t.retire.sees rs)
    else s.waitFor tk (.bwait c.1 c.2.1 o (f.x.getLsbD 0) (sAddr .bwait t b f)))
/-- BTEST on one thread (R199). -/
def btestBody (f : Fields) (tk : Nat) (t : Thread) (b : Block) (s : State) : State :=
  s.onObject .btest false f tk t b (fun c o =>
    (s.setThread tk (((t.retire.sees (s.objReleases tk c)).setPred (f.d.toNat % 8) ((s.obj c.1 o).phase = f.x.getLsbD 0)).readyFrom
      .btest b.limits f (s.due (tkCore tk) 4))).bumpFresh)

/-- BINIT (R199). -/
def execBinit (f : Fields) (s : State) : Out := .next (issueAll .binit f (binitBody f) s)
/-- BEXPECT (R199). -/
def execBexpect (f : Fields) (s : State) : Out := .next (issueAll .bexpect f (bexpectBody f) s)
/-- BARRIVE (R199). -/
def execBarrive (f : Fields) (s : State) : Out := .next (issueAll .barrive f (barriveBody f) s)
/-- BWAIT (R199). -/
def execBwait (f : Fields) (s : State) : Out := .next (issueAll .bwait f (bwaitBody f) s)
/-- BTEST (R199). -/
def execBtest (f : Fields) (s : State) : Out := .next (issueAll .btest f (btestBody f) s)

/-! ### Seams (R43, R201, R423) -/

/-- A seam of a block. -/
def Block.seam (b : Block) (n : Nat) : Seam := Sparse.getD b.seams n ⟨0, 0, false⟩
/-- TVAL and TINFO of cause 0x0A (Table 24.6). -/
def seamInfo (x : Seam) (n sub val : Nat) : TrapInfo :=
  ⟨0x0A, val * 2 ^ 32 + bit1 x.phase * 2 ^ 31 + x.sig * 2 ^ 18 + x.declared * 64 + n, sub⟩
/-- Whether an MMA of the block that is queued, saved or in progress names a seam (Table 24.5). -/
def State.seamBusy (s : State) (bk : Nat) (b : Block) (n : Nat) : Bool :=
  ((s.core b.core).mxq ++ b.savedEntries).any (fun e => e.op == .mma && tkBk e.tk == bk && e.seam == n)

/-- SEAMSET on one thread (R201). -/
def seamsetBody (f : Fields) (tk : Nat) (t : Thread) (b : Block) (s : State) : State :=
  let n := f.a.idx.toNat % 16
  let x := b.seam n
  let v := opndB .seamset t b f
  if v > 4095 then s.takeTrap tk (seamInfo x n 0 v) s.cur.id false
  else if s.seamBusy (tkBk tk) b n then s.takeTrap tk (seamInfo x n 2 0) s.cur.id false
  else (s.setBlock (tkBk tk) { b with seams := Sparse.set b.seams n { x with declared := v, sig := 0 } }).setThread tk t.retire

/-- OperandFence (R110): the thread's scratchpad writes, and those that happen-before it, are made, and no acquire that could
bring more is open. -/
def State.operandOk (s : State) (tk : Nat) (t : Thread) : Bool :=
  s.reqs.all (fun r => !(r.tk == tk || t.hb.contains r.id) ||
    (!(r.ord.acquires && (r.tk == tk || r.stage != .done)) && (!r.act.writes || r.stage == .done || !r.place.isScr)))

/-- SEAMSIGN on one thread (R201, R110). -/
def seamsignBody (f : Fields) (tk : Nat) (t : Thread) (b : Block) (s : State) : State :=
  let n := f.a.idx.toNat % 16
  let x := b.seam n
  if !s.operandOk tk t then s.waitFor tk .operand
  else if x.sig + 1 > 8191 then s.takeTrap tk (seamInfo x n 1 0) s.cur.id false
  else (s.setBlock (tkBk tk) { b with seams := Sparse.set b.seams n { x with sig := x.sig + 1 } }).setThread tk t.retire
/-- SEAMWAIT on one thread (R201). -/
def seamwaitBody (f : Fields) (tk : Nat) (t : Thread) (b : Block) (s : State) : State :=
  let n := f.a.idx.toNat % 16
  if (b.seam n).phase = f.x.getLsbD 0 then s.setThread tk t.retire else s.waitFor tk (.seam n (f.x.getLsbD 0))
/-- SEAMTEST on one thread (R201). -/
def seamtestBody (f : Fields) (tk : Nat) (t : Thread) (b : Block) (s : State) : State :=
  let x := decide ((b.seam (f.a.idx.toNat % 16)).phase = f.x.getLsbD 0)
  (s.setThread tk ((t.retire.setPred (f.d.toNat % 8) x).readyFrom .seamtest b.limits f (s.due (tkCore tk) 4))).bumpFresh

/-- SEAMSET (R201). -/
def execSeamset (f : Fields) (s : State) : Out := .next (issueAll .seamset f (seamsetBody f) s)
/-- SEAMSIGN (R201). -/
def execSeamsign (f : Fields) (s : State) : Out := .next (issueAll .seamsign f (seamsignBody f) s)
/-- SEAMWAIT (R201). -/
def execSeamwait (f : Fields) (s : State) : Out := .next (issueAll .seamwait f (seamwaitBody f) s)
/-- SEAMTEST (R201). -/
def execSeamtest (f : Fields) (s : State) : Out := .next (issueAll .seamtest f (seamtestBody f) s)

/-- STWAIT on one thread (R202). -/
def stwaitBody (f : Fields) (tk : Nat) (t : Thread) (_ : Block) (s : State) : State :=
  if t.pst ≤ f.imm.toNat then s.setThread tk t.retire else s.waitFor tk (.stwait f.imm.toNat)
/-- STWAIT (R202). -/
def execStwait (f : Fields) (s : State) : Out := .next (issueAll .stwait f (stwaitBody f) s)

/-! ### Special registers and constants (R161 to R165) -/

/-- The value of a special register (Table 6.5). -/
def specialReg (s : State) (tk : Nat) (t : Thread) (b : Block) (i : Nat) : Nat :=
  let thr := tkThr tk
  match i with
  | 0 => thr
  | 1 => b.desc.ntid
  | 2 => b.blk
  | 3 => b.desc.nblk
  | 4 => b.qrank
  | 5 => b.desc.quilt
  | 6 => laneOfThr thr
  | 7 => sliceOfThr thr
  | 8 => thr / 192 + b.slotb
  | 9 => b.core % 4
  | 10 => b.core / 4
  | 11 => b.asid
  | 12 => s.clk
  | 13 => t.pst
  | _ => b.tlBase thr

/-- MOVSR on one thread (R161): %clk and %pst are long-latency (R31). %pst is sampled in the step of the issue (R163; log 65). -/
def movsrBody (f : Fields) (tk : Nat) (t : Thread) (b : Block) (s : State) : State :=
  let i := f.a.idx.toNat
  let x := specialReg s tk t b i
  if i = 12 ∨ i = 13 then
    let p := knownPend .movsr b.limits f s.nextId x (s.due (tkCore tk) 8) 0 (flagHome t)
    ((s.setThread tk (t.retire.openPend p)).bumpId).bumpFresh
  else
    (s.setThread tk (((t.retire).deliver .movsr b.limits f (outVal x)).readyFrom .movsr b.limits f
      (s.due (tkCore tk) 4))).bumpFresh
/-- MOVSR (R161). -/
def execMovsr (f : Fields) (s : State) : Out := .next (issueAll .movsr f (movsrBody f) s)

/-- LDKX on one thread (R164): an index of 64 or more reads 0. -/
def ldkxBody (f : Fields) (tk : Nat) (t : Thread) (b : Block) (s : State) : State :=
  let i := (opndA .ldkx t b f + f.x.toNat) % 2 ^ 32
  let k (j : Nat) : Nat := if j < 64 then (b.k j).toNat else 0
  let x := if f.wide then k i + 2 ^ 32 * k (i + 1) else k i
  (s.setThread tk (((t.retire).deliver .ldkx b.limits f (outVal x)).readyFrom .ldkx b.limits f
    (s.due (tkCore tk) 4))).bumpFresh
/-- LDKX (R164). -/
def execLdkx (f : Fields) (s : State) : Out := .next (issueAll .ldkx f (ldkxBody f) s)

/-- NOP (R165): it ignores every field but OPC, the guard included. -/
def execNop (_ : Fields) (s : State) : Out :=
  .next (issueAll .nop ⟨0, false, 0, 0, .none, .pred, 0, ⟨.v, 0⟩, ⟨.v, 0⟩, 0, 0⟩ (fun tk t _ s => s.setThread tk t.retire) s)

end Sys2Proof.Machine
end

