-- ==== Sys2Proof/Machine/KStep.lean ====
section
/-!
DEFINITION. The fused K step (R88 to R90): 128 exact products and one accumulator in a 64-bit window, rounded once.
-/
namespace Sys2Proof.Machine

/-- floor(x / q) of a magnitude m * 2^e with q = 2^g. -/
def floorDivPow (m : Nat) (e g : Int) : Nat := if e ≥ g then m <<< (e - g).toNat else m >>> (g - e).toNat

/-- The largest floor(log2 |x|) among the finite values. -/
def topExp (xs : List FV) : Option Int :=
  xs.foldl (fun acc x => match x with
    | .fin _ m e => some (match acc with | none => expOf m e | some l => max l (expOf m e))
    | _ => acc) none

/-- A K step from the accumulator `c` and the exact products (R88 steps 2 to 6): the new accumulator word and the
flags it raises. `pre` holds INV for a 0 times infinity among the products. -/
def kSum (c : Word) (ps : List FV) (pre : FlagWord) : Word × FlagWord :=
  let cv := fv32 c
  let xs := cv :: ps
  if xs.any FV.isNaN then (0x7FC00000, fNAN ||| pre)
  else if xs.contains (.inf false) && xs.contains (.inf true) then (0x7FC00000, fINV ||| fNAN ||| pre)
  else if xs.contains (.inf false) then (0x7F800000, pre)
  else if xs.contains (.inf true) then (0xFF800000, pre)
  else match topExp xs with
    | none => (c, pre)
    | some l =>
      let g := l - 63
      let n := xs.foldl (fun (s : Int) x => match x with
        | .fin neg m e => if neg then s - (floorDivPow m e g : Int) else s + (floorDivPow m e g : Int)
        | _ => s) 0
      if n = 0 then (0, pre)
      else
        let neg := decide (n < 0)
        let r := roundFin fp32 .rn neg n.natAbs g
        if r.flags &&& fOVF != 0 then (BitVec.ofNat 32 (withSign fp32 neg fp32.maxCode), fOVF ||| pre)
        else (BitVec.ofNat 32 r.code, r.flags ||| pre)

/-- The exact product of the four factors of R88 step 1, with INV for a 0 that meets an infinity. -/
def kProd (a b sa sb : FV) : FV × FlagWord :=
  let fs := [a, b, sa, sb]
  if fs.any FV.isZero && fs.any FV.isInf then (.nan false, fINV)
  else ((mulFV (mulFV (mulFV a b).1 sa).1 sb).1, 0)

/-- KStep (R88): `as` and `bs` are the 128 elements, `sa` the row's scale, `sbs` the column scales. -/
def kStep (c : Word) (as bs : List FV) (sa : FV) (sbs : List FV) : Word × FlagWord :=
  let ps := (as.zip (bs.zip sbs)).map (fun x => kProd x.1 x.2.1 sa x.2.2)
  kSum c (ps.map (·.1)) (ps.foldl (fun w p => w ||| p.2) 0)

end Sys2Proof.Machine
end

