-- ==== Sys2Proof/Machine/Matrix.lean ====
section
/-!
DEFINITION. The matrix unit (chapter 11, R416 to R426): residencies and their directory, the matrix queue, MMAs, fills and
accumulator entries.
-/
namespace Sys2Proof.Machine

/-! ### Handles and the directory (R237, R242, R247 to R250) -/

/-- CORE of a handle (Table 11.4). -/
def hCore (h : Nat) : Nat := bitsOf h 26 6
/-- The handle of a directory entry. -/
def Residency.handle (r : Residency) (core : Nat) : Nat :=
  core * 2 ^ 26 + r.base * 2 ^ 21 + (r.cnt - 1) * 2 ^ 16 + r.gen
/-- The live entry that a handle names (R237). -/
def State.resOf (s : State) (h : Nat) : Option Residency :=
  (s.core (hCore h)).dir.find? (fun r => r.live && r.handle (hCore h) == h)
/-- Changes the entry that a handle names, live or revoked and still in use. -/
def State.modRes (s : State) (h : Nat) (g : Residency → Residency) : State :=
  s.modCore (hCore h) (fun c => { c with dir := c.dir.map (fun r => if r.handle (hCore h) = h then g r else r) })
/-- The numeric code of a state (Table 11.5). -/
def RsState.code : RsState → Nat | .filling => 0 | .valid => 1 | .stale => 2 | .evicted => 3

/-- Whether an entry holds its slots. -/
def Residency.holds (r : Residency) : Bool := r.state != .evicted
/-- Whether a slot is free. -/
def Core.slotFree (c : Core) (j : Nat) : Bool :=
  c.dir.all (fun r => !(r.holds && decide (r.base ≤ j ∧ j < r.base + r.cnt)))
/-- The lowest base of n consecutive free slots. -/
def Core.findRun (c : Core) (n : Nat) : Option Nat :=
  (List.range (33 - n)).find? (fun b => (List.range n).all (fun i => c.slotFree (b + i)))
/-- The evictable residency with the oldest stamp (R242). -/
def Core.victim (c : Core) : Option Residency :=
  (c.dir.filter (fun r => r.live && r.holds && !r.pinned && r.inUse == 0)).foldl
    (fun acc r => match acc with | some a => if r.stamp < a.stamp then some r else acc | none => some r) none
/-- Takes a residency's slots back; its handle stays live (R242). -/
def Residency.evict (r : Residency) : Residency := { r with state := .evicted, filled := 0, since := 0, pinned := false }
/-- Evicts until a run of n exists. -/
def Core.makeRun (c : Core) (n : Nat) : Nat → Option (Core × Nat)
  | 0 => none
  | fuel + 1 =>
    match c.findRun n with
    | some b => some (c, b)
    | none => match c.victim with
      | some v => Core.makeRun { c with dir := c.dir.map (fun r => if r.stamp = v.stamp then r.evict else r) } n fuel
      | none => none
/-- The oldest EVICTED entry: by its recency stamp (DESIGN CHOICE, log 66; R242 does not say which age counts). -/
def Core.oldestEvicted (c : Core) : Option Residency :=
  (c.dir.filter (fun r => r.live && r.state == .evicted)).foldl
    (fun acc r => match acc with | some a => if r.stamp < a.stamp then some r else acc | none => some r) none
/-- Room for one more directory entry (R237, R242): what is no longer live stands in the list only for the slots it still holds. -/
def Core.dirRoom (c : Core) : Option Core :=
  if (c.dir.filter (·.live)).length < 64 then some c
  else c.oldestEvicted.map (fun v => { c with dir := c.dir.filter (fun r => r.stamp != v.stamp) })
/-- The next value of the allocation counter (R237). -/
def nextGen (g : Nat) : Nat := if g = 0xFFFF then 1 else g + 1

/-- RSALLOC on a core (R242): the new core and the handle, 0 on failure. -/
def Core.alloc (c : Core) (core n asid : Nat) : Core × Nat :=
  match c.makeRun n 40 with
  | none => (c, 0)
  | some (c1, b) => match c1.dirRoom with
    | none => (c, 0)
    | some c2 =>
      let r : Residency :=
        { base := b, cnt := n, gen := c2.allocCtr, owner := asid, state := .filling, filled := 0, since := 0
          pinned := false, live := true, src := none, granules := [], inUse := 0, stamp := c2.stamp }
      ({ c2 with
          dir := c2.dir ++ [r], stamp := c2.stamp + 1, allocCtr := nextGen c2.allocCtr
          slots := c2.slots.filter (fun x => !(decide (b ≤ x.1 ∧ x.1 < b + n))) }, r.handle core)

/-- Slots pinned by an ASID (R247). -/
def Core.pinnedBy (c : Core) (asid : Nat) : Nat :=
  ((c.dir.filter (fun r => r.live && r.pinned && r.owner == asid)).map (·.cnt)).sum
/-- The quota of an ASID (R248). -/
def Core.quotaOf (c : Core) (asid : Nat) : Nat := Sparse.getD c.quotas asid 0

/-- A slot of a core. -/
def Core.slot (c : Core) (j : Nat) : Slot := Sparse.getD c.slots j Slot.reset
/-- A low half of a 16-bit tile (Table 11.1). -/
def isLow16 (tag : Nat) : Bool := tag == 0x1D || tag == 0x1E
/-- Whether a 16-bit pair begins at a slot (R233). -/
def Core.pairAt (c : Core) (j : Nat) : Bool := isLow16 (c.slot j).tag && (c.slot (j + 1)).tag == 0x1F
/-- The first slots of the tiles of a run of slots (R234). -/
def Core.tilesFrom (c : Core) (j stop : Nat) : Nat → List Nat
  | 0 => []
  | fuel + 1 => if j ≥ stop then [] else j :: c.tilesFrom (if c.pairAt j && decide (j + 1 < stop) then j + 2 else j + 1) stop fuel
/-- The tiles of a residency (R234), by the tags of its slots: a 16-bit pair is one tile, filled or not (DEDUCED, log 49). -/
def Core.tilesOf (c : Core) (r : Residency) : List Nat := c.tilesFrom r.base (r.base + r.cnt) 32
/-- Whether an MMA reads the tile at a slot as Empty (R243, R251): by its tag, or as a slot of it does. -/
def Core.readsEmpty (c : Core) (e : MxEntry) (j : Nat) : Bool :=
  (c.slot j).tag == 0x1C || e.emp.getLsbD j || (c.pairAt j && e.emp.getLsbD (j + 1))

/-- One in-use count more or less; a revoked residency without users frees its slots (R249). -/
def State.useRes (s : State) (h : Nat) (d : Int) : State :=
  let s1 := s.modRes h (fun r => { r with inUse := ((r.inUse : Int) + d).toNat })
  s1.modCore (hCore h) (fun c => { c with dir := c.dir.filter (fun r => r.live || r.inUse != 0) })

/-- RSREVOKE of a live handle (R249). -/
def State.revoke (s : State) (h : Nat) : State :=
  (s.modRes h (fun r => { r with live := false, pinned := false, src := none, granules := [] })).useRes h 0

/-! ### Checks when an entry is made (R416 to R419) -/

/-- TVAL and TINFO of causes 0x0D to 0x0F (Table 24.2). -/
def resInfo (cause sub h : Nat) (op : Op) (cnt pinned st : Nat) : TrapInfo :=
  ⟨cause, sub * 2 ^ 60 + h, op.code.toNat * 2 ^ 24 + cnt * 2 ^ 16 + pinned * 2 ^ 8 + st * 8⟩

/-- Checks 2 to 4 of Table 24.1 for a handle: live, owned, on the thread's core where `here`. -/
def State.handleCheck (s : State) (op : Op) (b : Block) (h : Nat) (here : Bool) : Option TrapInfo :=
  match s.resOf h with
  | none => some (resInfo 0x0E 0 h op 0 0 0)
  | some r =>
    if r.owner ≠ b.asid then some (resInfo 0x0E 1 h op (r.cnt - 1) 0 0)
    else if here && hCore h != b.core then some (resInfo 0x0E 2 h op (r.cnt - 1) 0 0)
    else none

/-- Check 6; CNT is zero for SUB 0 (Table 24.2): EVICTED permits neither MMA, RSFILL nor RSPIN (Table 24.3). -/
def Residency.stateCheck (r : Residency) (op : Op) (h : Nat) : Option TrapInfo :=
  if r.state = .evicted then some (resInfo 0x0D 0 h op 0 0 3) else none

/-- The first check that fails. -/
def firstTrap : List (Option TrapInfo) → Option TrapInfo
  | [] => none
  | some i :: _ => some i
  | none :: r => firstTrap r

/-- Check 8 for an own scratchpad operand at an offset. -/
def alignCheck (op : Op) (w : Bool) (off : Nat) : Option TrapInfo :=
  if off % 128 ≠ 0 then some ⟨0x03, off, memInfo 2 op.code.toNat w 1 false 0⟩ else none
/-- Checks 9 and 10 for an own scratchpad operand of `n` bytes at an offset. -/
def Block.rangeCheck (b : Block) (op : Op) (w : Bool) (off n : Nat) : Option TrapInfo :=
  let info (sub : Nat) : Nat := memInfo sub op.code.toNat w 1 false 0
  if off ≥ 2 ^ 31 then some ⟨0x06, off, info 2⟩
  else if off + n > b.spsize then some ⟨0x06, max off b.spsize, info 0⟩
  else none
/-- Checks 8 to 10 for an own scratchpad operand of `n` bytes at an offset. -/
def Block.operandCheck (b : Block) (op : Op) (w : Bool) (off n : Nat) : Option TrapInfo :=
  firstTrap [alignCheck op w off, b.rangeCheck op w off n]

/-- Bytes of one block of a canonical A operand (Table 11.2). -/
def aBlock (at_ m : Nat) : Nat := if at_ = 0 then 128 * (m + 1) else 256 * m
/-- Bytes of a canonical B tile (Table 11.3). -/
def bTile (at_ : Nat) : Nat := if at_ = 0 then 66048 else 131072
/-- Element size of ACCLD and ACCST (R255). -/
def accSize (f : Fields) : Nat := if f.top2 ≠ 0 then 2 else if f.x.getLsbD 5 then 4 else 1

/-- The checks of Table 24.1 for the instructions that enter the queue. -/
def State.mxCheck (s : State) (op : Op) (t : Thread) (b : Block) (f : Fields) : Option TrapInfo :=
  let lo := opndB op t b f % 2 ^ 32
  let hi := opndB op t b f / 2 ^ 32
  match op with
  | .mma =>
    let m := f.imm.toNat % 128 + 1
    match s.handleCheck op b lo true, s.resOf lo with
    | some i, _ => some i
    | none, some r =>
      firstTrap [r.stateCheck op lo, b.operandCheck op false hi (((s.core b.core).tilesOf r).length * aBlock f.top2 m)]
    | none, none => none
  | .rsfill =>
    let j := hi % 32
    match s.handleCheck op b lo true, s.resOf lo with
    | some i, _ => some i
    | none, some r =>
      let last := if f.top2 = 0 then j else j + 1
      let barInfo (sub : Nat) : Nat := memInfo sub op.code.toNat true (if f.imm.toNat < 2 ^ 31 then 1 else 2) false 0
      firstTrap
        [if last ≥ r.cnt then some (resInfo 0x0E 3 lo op (r.cnt - 1) j 0) else none,
         r.stateCheck op lo,
         alignCheck op false (opndA op t b f),
         if f.imm.toNat % 16 ≠ 0 then some ⟨0x03, f.imm.toNat, barInfo 2⟩ else none,
         b.rangeCheck op false (opndA op t b f) (bTile f.top2),
         (b.scrCheck f.imm.toNat 16).map (fun c => ⟨c.1, c.2.2, barInfo c.2.1⟩)]
    | none, none => none
  | .accld => b.operandCheck op false (opndA op t b f) (accC f * 512 * accSize f)
  | .accst => b.operandCheck op true (opndA op t b f) (accC f * 512 * accSize f)
  | _ => none

/-! ### Entering the queue (R239) -/

/-- Whether some block of the core still has saved entries to re-enter (R256). -/
def State.savedFirst (s : State) (core : Nat) : Bool := s.blocks.any (fun c => c.2.core == core && c.2.savedEntries != [])
/-- Whether an acquire of the thread is still to return (R239). -/
def State.acqOpen (s : State) (tk : Nat) : Bool :=
  s.reqs.any (fun r => r.tk == tk && r.ord.acquires) ||
    (match s.thread? tk with | some t => t.pends.any (·.acq) | none => false)
/-- Where a thread stands among those of its core that began to wait in one cycle: by slice, lane and slot (R239; log 49). -/
def waitRank (tk : Nat) : Nat := (sliceOfThr (tkThr tk) * 32 + laneOfThr (tkThr tk)) * 2 ^ 18 + tk % 2 ^ 18
/-- Whether an older waiter of the core may enter first. -/
def State.olderWaiter (s : State) (tk since : Nat) : Bool :=
  s.threads.any (fun c =>
    tkCore c.1 == tkCore tk && c.1 != tk && !s.acqOpen c.1 &&
    (match c.2.wait with
    | .matrixRoom _ => decide (c.2.waitSince < since) || (c.2.waitSince == since && decide (waitRank c.1 < waitRank tk))
    | _ => false))
/-- Whether a thread's entry may enter the queue now (R239). -/
def State.mayEnter (s : State) (tk : Nat) (t : Thread) : Bool :=
  let since := match t.wait with | .matrixRoom _ => t.waitSince | _ => s.clk
  decide ((s.core (tkCore tk)).mxq.length < 16) && !s.savedFirst (tkCore tk) && !s.acqOpen tk && !s.olderWaiter tk since

/-- The scratchpad accesses that come before a matrix entry and are not performed (R95, R107, R253): the thread's own and those
that happen-before it, reads only before an entry that writes the scratchpad; and acquires that happen-before it. -/
def State.scrBefore (s : State) (op : Op) (tk : Nat) (t : Thread) : List Nat :=
  (s.reqs.filter (fun r => (r.tk == tk || t.hb.contains r.id) && r.stage != .done &&
    ((r.place.isScr && (r.act.writes || op == .accst)) || r.ord.acquires))).map (·.id)

/-- Whether an MMA on a tile of a block is in flight (R110): issued, and its phase not flipped. -/
def State.mmaOn (s : State) (b : Block) (tile : Nat) : Bool :=
  ((s.core b.core).mxq ++ b.savedEntries).any (fun x => x.op == .mma && x.tile == tile)

/-- The entry of an instruction with its operands. -/
def mkEntry (s : State) (op : Op) (f : Fields) (tk : Nat) (t : Thread) (b : Block) : MxEntry :=
  let lo := opndB op t b f % 2 ^ 32
  let hi := opndB op t b f / 2 ^ 32
  let named := op == .mma || op == .rsfill
  { id := s.nextId, op := op, tk := tk, pc := t.pc, seam := f.a.idx.toNat % 16
    tile := b.abase + f.d.toNat, tile2 := b.abase + f.a.idx.toNat, tileName := if op = .rsfill then 0 else f.d.toNat
    handle := if named then lo else 0, off := if op = .mma then hi else opndA op t b f
    rows := if op = .mma then f.imm.toNat % 128 + 1 else accC f, first := accF f
    at_ := f.top2, fmt := f.x.toNat, staleOk := f.fn.getLsbD 5
    slot := bitsOf lo 21 5 + hi % 32, bar := f.imm.toNat, home := flagHome t, started := false, p := 0, emp := 0, awaits := 0, tested := false
    before := s.scrBefore op tk t, mark := b.marks, racing := s.mmaOn b (b.abase + f.d.toNat), racing2 := s.mmaOn b (b.abase + f.a.idx.toNat), stepping := false, retries := 0, since := s.clk, due := 0 }

/-- APPLIED of a site (R301). -/
def State.applied (s : State) (site : Nat) : Nat := (s.site site).applied
/-- The issue cap TCAP of a state (Table 14.3). -/
def tcapOf (st : Nat) : Nat := [8, 8, 6, 6, 4, 3, 2, 1].getD st 1

/-- Whether an entry is an accumulator entry. -/
def MxEntry.isAcc (e : MxEntry) : Bool := e.op != .mma && e.op != .rsfill
/-- The tiles an entry reads or writes. -/
def MxEntry.tiles (e : MxEntry) : List Nat :=
  match e.op with
  | .rsfill => []
  | .accadd | .accmov => [e.tile, e.tile2]
  | _ => [e.tile]
/-- The slots a fill writes. -/
def MxEntry.fillSlots (e : MxEntry) : List Nat :=
  if e.op = .rsfill then (if e.at_ = 0 then [e.slot] else [e.slot, e.slot + 1]) else []

/-- Whether an entry has started for those behind it: an MMA with its first K step, when it has passed its test (R240, R246). -/
def MxEntry.begun (x : MxEntry) : Bool := x.started && (x.op != .mma || x.tested)

/-- Whether an entry's order lets it start (R240): every earlier entry of its block has started, and no earlier accumulator
entry on one of its tiles, nor for an MMA an earlier MMA on its tile, is still in the queue. -/
def orderOk (earlier : List MxEntry) (e : MxEntry) : Bool :=
  earlier.all (fun x =>
    (tkBk x.tk != tkBk e.tk || x.begun) &&
    !(x.isAcc && x.tiles.any (fun t => e.tiles.contains t)) &&
    !(e.op == .mma && x.op == .mma && x.tile == e.tile))

/-- Core cycles of an entry other than an MMA from start to completion (R252). -/
def MxEntry.cycles (e : MxEntry) : Nat :=
  match e.op with
  | .rsfill => if e.at_ = 0 then 145 else 272
  | .accz => 16 + e.rows
  | .accld | .accst => 16 + e.rows * (if e.at_ ≠ 0 then 2 else if e.fmt.testBit 5 then 4 else 1)
  | _ => 144

/-- What a fill does when it starts (R243): from STALE it clears every filled bit and sets FILLING. -/
def State.fillStarts (s : State) (e : MxEntry) : State :=
  if e.op = .rsfill then
    s.modRes e.handle (fun r =>
      if r.state = .stale then { r with state := .filling, filled := 0, since := 0 } else r)
  else s

/-- Whether an entry other than an MMA may start now. -/
def State.otherMayStart (s : State) (core : Nat) (earlier : List MxEntry) (e : MxEntry) : Bool :=
  e.op != .mma && !e.started && !(s.core core).matrixFenced && s.applied (core / 4) != 7 && orderOk earlier e &&
    !(s.reqs.any (fun r => e.before.contains r.id && r.stage != .done)) && !s.behindMarker (tkBk e.tk) e.mark &&
    (match s.block? (tkBk e.tk) with | some b => !b.stopping | none => false)

/-- Starts the first entry of a queue, other than an MMA, that may start. -/
def State.startOther (s : State) (core : Nat) : State :=
  let q := (s.core core).mxq
  match (List.range q.length).find? (fun i =>
      match q[i]? with | some e => s.otherMayStart core (q.take i) e | none => false) with
  | none => s
  | some i => match q[i]? with
    | none => s
    | some e =>
      let s1 := s.fillStarts e
      (s1.modCore core (fun c =>
        { c with mxq := c.mxq.map (fun x => if x.id = e.id then
            { x with started := true, due := s.now core + (if (s.core core).det then e.cycles else e.cycles + Config.latency s.fresh) }
          else x) })).bumpFresh
/-- Starts every entry other than an MMA that may start. -/
def State.startOthers (s : State) (core : Nat) : State := (List.range 16).foldl (fun s _ => s.startOther core) s

/-! ### Residency instructions -/

/-- RSALLOC on one thread (R242, Table 24.1 check 1). -/
def rsallocBody (f : Fields) (tk : Nat) (t : Thread) (b : Block) (s : State) : State :=
  let n := opndA .rsalloc t b f
  if n = 0 ∨ n > 32 then s.takeTrap tk (rejectInfo Op.rsalloc.code.toNat 7 7 n) s.cur.id false
  else
    let (c, h) := (s.core b.core).alloc b.core n b.asid
    ((s.setCore b.core c).setThread tk ((t.retire.setReg f.d.toNat (BitVec.ofNat 32 h)).readyFrom .rsalloc b.limits f
      (s.due b.core 4))).bumpFresh
/-- RSALLOC (R242). -/
def execRsalloc (f : Fields) (s : State) : Out := .next (issueAll .rsalloc f (rsallocBody f) s)

/-- The first failing VA of an RSSRC range (R419): the lowest page that fails, then what lies beyond 2^56. -/
def State.srcCheck (s : State) (t : Thread) (b : Block) (ea len : Nat) : Option TrapInfo :=
  let info (sub : Nat) : Nat := memInfo sub 0xA6 false 0 false 0
  let beyond := if ea + len > 2 ^ 56 then some (⟨0x04, max ea (2 ^ 56), info 6⟩ : TrapInfo) else none
  if len = 0 then none
  else firstTrap (((rangePages ea len).filter (fun v => decide (v < 2 ^ 40))).map (fun v =>
    match s.walkAt b.core b.asid (v * 65536) with
    | .fail c sub => some ⟨c, lowestIn ea v, info sub⟩
    | .ok e =>
      if userDenied t b.asid e then some ⟨0x05, lowestIn ea v, info 0⟩
      else if !s.ownDram e.base || e.mt == 2 then some ⟨0x05, lowestIn ea v, info 4⟩
      else none) ++ [beyond])
/-- The 64 KiB granules of an RSSRC range (R244). -/
def State.srcGranules (s : State) (b : Block) (ea len : Nat) : List Nat :=
  (rangePages ea len).filterMap (fun v =>
    match s.walkAt b.core b.asid (v * 65536) with | .ok e => some (e.pa (v * 65536) / 65536) | .fail _ _ => none)
/-- RSSRC on one thread (R244). -/
def rssrcBody (f : Fields) (tk : Nat) (t : Thread) (b : Block) (s : State) : State :=
  let h := opndB .rssrc t b f
  let ea := opndA .rssrc t b f
  let len := opndC .rssrc t b f
  let s := if len = 0 ∨ (s.handleCheck .rssrc b h false).isSome then s
    else s.walkEach b.core b.asid (((rangePages ea len).map (· * 65536)).filter (fun va => decide (va < 2 ^ 56)))
  match firstTrap [s.handleCheck .rssrc b h false, s.srcCheck t b ea len] with
  | some i => s.takeTrap tk i s.cur.id false
  | none =>
    let gs := s.srcGranules b ea len
    (s.modRes h (fun r => { r with src := if len = 0 then none else some (ea, len), granules := gs })).setThread tk t.retire
/-- RSSRC (R244). -/
def execRssrc (f : Fields) (s : State) : Out := .next (issueAll .rssrc f (rssrcBody f) s)

/-- RSPIN on one thread (R247). -/
def rspinBody (f : Fields) (tk : Nat) (t : Thread) (b : Block) (s : State) : State :=
  let h := opndB .rspin t b f
  match s.handleCheck .rspin b h true, s.resOf h with
  | some i, _ => s.takeTrap tk i s.cur.id false
  | none, none => s
  | none, some r =>
    let c := s.core b.core
    let quota : Option TrapInfo :=
      if !r.pinned && decide (c.pinnedBy b.asid + r.cnt > c.quotaOf b.asid) then
        some (resInfo 0x0F 0 h .rspin 0 (c.pinnedBy b.asid) 0)
      else none
    match firstTrap [r.stateCheck .rspin h, quota] with
    | some i => s.takeTrap tk i s.cur.id false
    | none => (s.modRes h (fun r => { r with pinned := true })).setThread tk t.retire
/-- RSPIN (R247). -/
def execRspin (f : Fields) (s : State) : Out := .next (issueAll .rspin f (rspinBody f) s)

/-- RSUNPIN on one thread (R247): on an EVICTED residency nothing changes. -/
def rsunpinBody (f : Fields) (tk : Nat) (t : Thread) (b : Block) (s : State) : State :=
  let h := opndB .rsunpin t b f
  match s.handleCheck .rsunpin b h true with
  | some i => s.takeTrap tk i s.cur.id false
  | none => (s.modRes h (fun r => { r with pinned := false })).setThread tk t.retire
/-- RSUNPIN (R247). -/
def execRsunpin (f : Fields) (s : State) : Out := .next (issueAll .rsunpin f (rsunpinBody f) s)

/-- RSREVOKE on one thread (R249, R418): of a handle that is not live it does nothing. -/
def rsrevokeBody (f : Fields) (tk : Nat) (t : Thread) (b : Block) (s : State) : State :=
  let h := opndB .rsrevoke t b f
  match s.resOf h with
  | none => s.setThread tk t.retire
  | some r =>
    if r.owner ≠ b.asid then s.takeTrap tk (resInfo 0x0E 1 h .rsrevoke (r.cnt - 1) 0 0) s.cur.id false
    else (s.revoke h).setThread tk t.retire
/-- RSREVOKE (R249). -/
def execRsrevoke (f : Fields) (s : State) : Out := .next (issueAll .rsrevoke f (rsrevokeBody f) s)

/-- The result of RSQUERY (Table 11.10); TILES counts a 16-bit pair as one tile, filled or not (DEDUCED, log 49). -/
def State.queryWord (s : State) (h : Nat) : Nat :=
  match s.resOf h with
  | none => 4
  | some r =>
    let src := bit1 r.src.isSome * 16
    if r.state = .evicted then src + 3
    else ((s.core (hCore h)).tilesOf r).length * 2 ^ 16 + popCount r.since.toNat 32 * 2 ^ 8 + src + bit1 r.pinned * 8 +
      r.state.code
/-- RSQUERY on one thread (R250): a long-latency result. -/
def rsqueryBody (f : Fields) (tk : Nat) (t : Thread) (b : Block) (s : State) : State :=
  let p := knownPend .rsquery b.limits f s.nextId (s.queryWord (opndB .rsquery t b f)) (s.due b.core 16) 0 (flagHome t)
  ((s.setThread tk (t.retire.openPend p)).bumpId).bumpFresh
/-- RSQUERY (R250). -/
def execRsquery (f : Fields) (s : State) : Out := .next (issueAll .rsquery f (rsqueryBody f) s)

/-- ASID teardown (R249): firmware revokes every residency of the ASID on every core. -/
def State.teardown (s : State) (asid : Nat) : State :=
  (s.cores.flatMap (fun c => (c.2.dir.filter (fun r => r.live && r.owner == asid)).map (·.handle c.1))).foldl
    (fun s h => s.revoke h) s

/-! ### The array (R246, R251, R252, R420, R424) -/

/-- A tile word's key. -/
def tileKey (tile row col : Nat) : Nat := tile * 65536 + row * 512 + col
/-- The 512 words of a tile row. -/
def Core.tileRow (c : Core) (tile row : Nat) : List Word :=
  let m := c.tiles.filter (fun x => x.1 / 512 == tileKey tile row 0 / 512)
  (List.range 512).map (fun n => Sparse.getD m (tileKey tile row n) 0)

/-- Removes an entry and gives its residency's in-use count back. -/
def State.dropEntry (s : State) (core : Nat) (e : MxEntry) : State :=
  let s1 := s.modCore core (fun c => { c with mxq := c.mxq.filter (fun x => x.id != e.id) })
  if e.handle = 0 then s1 else s1.useRes e.handle (-1)

/-- A stale drop (R420, R421): the entry and its block's later ones, those still saved too, are dropped, each with a report. -/
def State.staleDrop (s : State) (core : Nat) (e : MxEntry) : State :=
  let later := ((s.core core).mxq.dropWhile (fun x => x.id != e.id)).filter (fun x => tkBk x.tk = tkBk e.tk)
  let info (x : MxEntry) : TrapInfo :=
    ⟨0x0C, bit1 (x.id != e.id) * 2 ^ 60 + x.tileName * 2 ^ 56 + x.pc.toNat, e.handle⟩
  let saved := match s.block? (tkBk e.tk) with | some b => b.savedEntries | none => []
  (later ++ saved).foldl (fun s x => (s.dropEntry core x).report x.tk (info x))
    (s.modBlock (tkBk e.tk) (fun b => { b with savedEntries := [] }))

/-- Whether an MMA's seam is satisfied (R43). -/
def State.seamOk (s : State) (e : MxEntry) : Bool :=
  match s.block? (tkBk e.tk) with
  | some b => decide ((b.seam e.seam).declared ≤ (b.seam e.seam).sig)
  | none => false

/-- The slots of a residency that earlier fills in the queue are to write. -/
def Core.fillsAhead (c : Core) (e : MxEntry) : List Nat := (c.mxq.takeWhile (fun x => x.id != e.id)).flatMap (·.fillSlots)
/-- Some slots of a residency as bits. -/
def Residency.slotBits (r : Residency) (p : Nat → Bool) : BitVec 32 :=
  (List.range r.cnt).foldl (fun m i => if p i then m ||| (1#32 <<< (r.base + i)) else m) 0#32
/-- The slots that read as Empty for an MMA at its first K step (R243, Table 24.3): their filled bit is clear and no earlier
fill is to write them. -/
def Core.emptyFor (c : Core) (e : MxEntry) (r : Residency) : BitVec 32 :=
  r.slotBits (fun i => !(r.filled.getLsbD i || (c.fillsAhead e).contains (r.base + i)))
/-- The slots that earlier fills are to write: one whose fill leaves the queue unperformed reads as Empty as well. -/
def Core.awaitedBy (c : Core) (e : MxEntry) (r : Residency) : BitVec 32 :=
  r.slotBits (fun i => !r.filled.getLsbD i && (c.fillsAhead e).contains (r.base + i))

/-- An entry with what its next K step finds Empty: at the first one, what is so now; later, also the slot of that step whose fill
has left unperformed. -/
def Core.asRead (c : Core) (e : MxEntry) (r : Residency) : MxEntry :=
  if !e.tested then { e with emp := c.emptyFor e r, awaits := c.awaitedBy e r }
  else { e with emp := e.emp ||| r.slotBits (fun i =>
    e.awaits.getLsbD (r.base + i) && !r.filled.getLsbD i && !(c.fillsAhead e).contains (r.base + i)) }

/-- Core cycles of a K step (R252, R302). -/
def kCycles (m : Nat) (wide half : Bool) : Nat := m * (if wide then 4 else 1) * (if half then 2 else 1)

/-- Whether the tile of an MMA's next K step, or its A operand, is 16-bit; a tile read as Empty is not. -/
def Core.stepWide (c : Core) (e : MxEntry) (r : Residency) : Bool :=
  e.at_ != 0 || (match (c.tilesOf r)[e.p]? with | some j => isLow16 (c.slot j).tag && !c.readsEmpty e j | none => false)

/-- Whether the next K step must wait for an earlier fill of its slots (R240). -/
def Core.stepWaits (c : Core) (e : MxEntry) (r : Residency) : Bool :=
  match (c.tilesOf r)[e.p]? with
  | some j => (c.fillsAhead e).any (if c.pairAt j then [j, j + 1] else [j]).contains
  | none => false

/-- Whether an MMA may take the array (R240, R252, R302): its first K step to come waits for no earlier fill; a stopped one goes
on without a new test. -/
def State.mmaMayStart (s : State) (core : Nat) (earlier : List MxEntry) (e : MxEntry) : Bool :=
  e.op == .mma && (e.started || (orderOk earlier e && s.seamOk e && !s.behindMarker (tkBk e.tk) e.mark)) && s.applied (core / 4) != 7 &&
    (match (s.core core).dir.find? (fun r => r.handle core = e.handle) with
      | some r => !(s.core core).stepWaits e r
      | none => false) &&
    (match s.block? (tkBk e.tk) with | some b => !b.stopping | none => false)

/-- The MMA that would take the array. -/
def State.nextMma (s : State) (core : Nat) : Option MxEntry :=
  let c := s.core core
  if c.array.isSome || c.matrixFenced then none
  else ((List.range c.mxq.length).findSome? (fun i =>
    match c.mxq[i]? with
    | some e => if s.mmaMayStart core (c.mxq.take i) e then some e else none
    | none => none))

/-- Replaces an entry of the queue. -/
def State.modEntry (s : State) (core id : Nat) (g : MxEntry → MxEntry) : State :=
  s.modCore core (fun c => { c with mxq := c.mxq.map (fun x => if x.id = id then g x else x) })

/-- MMA_START (R252): the earliest MMA that may start takes the array for 16 cycles of start and then its K steps. One
that resumes takes them again (DESIGN CHOICE, log 66). -/
def State.mmaStart (s : State) (core : Nat) : State :=
  match s.nextMma core with
  | none => s
  | some e =>
    let s1 := s.modEntry core e.id (fun x => { x with started := true, stepping := false, due := s.now core + 16 })
    let s2 := s1.modCore core (fun c =>
      { c with
        array := some e.id, stamp := c.stamp + 1
        dir := c.dir.map (fun x => if x.handle core = e.handle then { x with stamp := c.stamp } else x) })
    if e.tested then s2.startOthers core else s2

/-- MMA_START, soon: the array takes an MMA in this core cycle if one may start. -/
def State.advance (s : State) (core : Nat) : State :=
  let s1 := s.startOthers core
  if (s1.nextMma core).isSome then { s1 with agenda := .mmaStart core :: s1.agenda } else s1

/-! ### The instructions that enter the queue -/

/-- An instruction of class 101 that enters the queue, on one thread (R239, R416): MMA and RSFILL retire with their entry; an
accumulator instruction waits for its entry to complete (R253). -/
def enterBody (op : Op) (f : Fields) (tk : Nat) (t : Thread) (b : Block) (s : State) : State :=
  let stitch := match t.wait with | .matrixRoom k => k | _ => s.cur.id
  if !s.mayEnter tk t then s.waitFor tk (.matrixRoom stitch)
  else match s.mxCheck op t b f with
    | some i => s.takeTrap tk i s.cur.id false
    | none =>
      let e := mkEntry s op f tk t b
      let s1 := (s.modCore b.core (fun c => { c with mxq := c.mxq ++ [e] })).bumpId
      let s2 := if e.handle = 0 then s1 else s1.useRes e.handle 1
      let s3 := if e.isAcc then s2.waitFor tk (.matrixEntry e.id stitch)
        else s2.setThread tk { t.retire with wait := .mates stitch, waitSince := s.clk }
      s3.advance b.core

/-- A member whose guard is false is not ready again before all entries of its stitch have entered (R239). -/
def State.waitMates (s0 : State) (f : Fields) (s : State) (tk : Nat) : State :=
  match s0.thread? tk with
  | some t =>
    if !t.exited && (nextTrap t).isNone && t.spec.isNone && !guardOf t f &&
        (s.threadsOf (tkBk tk)).any (fun c => !c.2.exited && c.2.wait == .matrixRoom s0.cur.id) then
      s.waitFor tk (.mates s0.cur.id)
    else s
  | none => s

/-- An instruction that enters the queue, for every member of the stitch. -/
def enterAll (op : Op) (f : Fields) (s : State) : State :=
  s.cur.members.foldl (State.waitMates s f) (issueAll op f (enterBody op f) s)

/-- MMA (R251). -/
def execMma (f : Fields) (s : State) : Out := .next (enterAll .mma f s)
/-- ACCZ (R254). -/
def execAccz (f : Fields) (s : State) : Out := .next (enterAll .accz f s)
/-- ACCLD (R255). -/
def execAccld (f : Fields) (s : State) : Out := .next (enterAll .accld f s)
/-- ACCST (R255). -/
def execAccst (f : Fields) (s : State) : Out := .next (enterAll .accst f s)
/-- ACCADD (R254). -/
def execAccadd (f : Fields) (s : State) : Out := .next (enterAll .accadd f s)
/-- ACCMOV (R254). -/
def execAccmov (f : Fields) (s : State) : Out := .next (enterAll .accmov f s)
/-- RSFILL (R243). -/
def execRsfill (f : Fields) (s : State) : Out := .next (enterAll .rsfill f s)

/-! ### K steps -/

/-- The elements of a stored row, `sz` bytes each. -/
def chunks (sz : Nat) (bs : List Byte) : Nat → List Nat
  | 0 => []
  | n + 1 => leNat (bs.take sz) :: chunks sz (bs.drop sz) n

/-- The 128 A elements of a row of a K step and the row scale (R235), and whether they read poison. -/
def State.aRow (s : State) (b : Block) (e : MxEntry) (row : Nat) : List FV × FV × Bool :=
  let g := aBlock e.at_ e.rows
  let base := b.spbase + e.off + e.p * g
  if e.at_ = 0 then
    let bs := s.scrBytes b.core (base + 128 * row) 128
    let sc := s.scrBytes b.core (base + 128 * e.rows + row) 1
    (bs.map (fun x => b8Value (e.fmt % 32) x.toNat), b8Value b8Scale (leNat sc),
      (s.scrPoisonIn b.core (base + 128 * row) 128).isSome || (s.scrPoisonIn b.core (base + 128 * e.rows + row) 1).isSome)
  else
    let f := fmtOf (if e.at_ = 1 then 2 else 1)
    ((chunks 2 (s.scrBytes b.core (base + 256 * row) 256) 128).map (ofIeee f), .fin false 1 0,
      (s.scrPoisonIn b.core (base + 256 * row) 256).isSome)

/-- The 512 columns of a slot: 128 weights and a scale each (R81, R82, R236). -/
def Slot.columns (x : Slot) : List (List FV × FV) :=
  let codes := x.codes.foldl (fun a c => a.setIfInBounds c.1 c.2) (Array.replicate 65536 0)
  (List.range 512).map (fun n =>
    if x.tag < 28 then
      ((List.range 128).map (fun k => b8Value x.tag (codes.getD (512 * k + n) 0)), b8Value b8Scale (Sparse.getD x.scales n 0))
    else
      ((List.range 128).map (fun k => ofIeee (if x.tag = 0x1D then bf16 else fp16) (codes.getD (512 * k + n) 0)), .fin false 1 0))

/-- One row of a K step: the new words of 512 columns from the old ones, and the flags (R251). -/
def kRow (olds : List Word) (as : List FV) (sa : FV) (cols : List (List FV × FV)) : List Word × FlagWord :=
  (olds.zip cols).foldr (fun x acc =>
    let (y, w) := kStep x.1 as x.2.1 sa (List.replicate 128 x.2.2)
    (y :: acc.1, acc.2 ||| w)) ([], 0)

/-- The K step of an MMA over every row (R251, R425): skipped over an Empty slot. Every A row is read as the step ends, after the writes
that R110 leaves racing with it (DESIGN CHOICE, log 66). -/
def State.kStepOf (s : State) (core : Nat) (b : Block) (e : MxEntry) (r : Residency) : State :=
  let c := s.core core
  match (c.tilesOf r)[e.p]? with
  | none => s
  | some j =>
    let x := c.slot j
    let low := isLow16 x.tag
    if c.readsEmpty e j then s
    else
      let bad := x.poison || (low && (c.slot (j + 1)).poison)
      let cols := x.columns
      (List.range e.rows).foldl (fun s row =>
        let (as, sa, po) := s.aRow b e row
        let (ws, w) := kRow ((s.core core).tileRow e.tile row) as sa cols
        let s1 := s.modCore core (fun c =>
          { c with
            tiles := Sparse.setRun c.tiles (tileKey e.tile row 0) ws
            tilePoison := if bad || po then (c.tilePoison ++ [e.tile * 128 + row]).eraseDups else c.tilePoison })
        s1.landFlags e.tk e.home w) s

/-- The array is free again. -/
def State.freeArray (s : State) (core : Nat) : State := (s.modCore core (fun c => { c with array := none })).advance core

/-- An MMA completes (R43, R251): the declared count is consumed and the phase flips. -/
def State.mmaDone (s : State) (core : Nat) (e : MxEntry) : State :=
  let flip (b : Block) : Block :=
    let x := b.seam e.seam
    { b with seams := Sparse.set b.seams e.seam { x with sig := x.sig - x.declared, phase := !x.phase } }
  let s1 := (s.dropEntry core e).modBlock (tkBk e.tk) flip
  s1.freeArray core

/-- The next K step of the MMA that holds the array begins, unless the MMA stops here for pre-emption (R256) or in TS7 (R302), or
must wait for an earlier fill of its slots (R240). Before its first K step it is tested for a stale residency (R246). -/
def State.stepBegin (s : State) (core : Nat) (b : Block) (e : MxEntry) (r : Residency) : State :=
  let c := s.core core
  if b.stopping || s.applied (core / 4) == 7 then (s.modEntry core e.id (fun x => { x with stepping := false })).freeArray core
  else if c.stepWaits e r then s.modEntry core e.id (fun x => { x with stepping := false })
  else if !e.tested && r.state == .stale && !e.staleOk then (s.staleDrop core e).freeArray core
  else
    let e1 := c.asRead e r
    let cyc := kCycles e.rows (c.stepWide e1 r) (s.applied (core / 4) = 6)
    (s.modEntry core e.id (fun _ => { e1 with tested := true, stepping := true, due := s.now core + cyc })).startOthers core

/-- The K step of an MMA that holds the array completes: the next one begins, or the MMA stops or completes. Its tiles are those that
the residency has at each step, where R251 writes S once (DESIGN CHOICE, log 66). -/
def State.kStepDone (s : State) (core : Nat) (b : Block) (e : MxEntry) (r : Residency) : State :=
  let s1 := (s.kStepOf core b e r).modEntry core e.id (fun x => { x with p := x.p + 1, retries := 0 })
  let e1 := { e with p := e.p + 1, retries := 0 }
  if e1.p ≥ ((s.core core).tilesOf r).length then s1.mmaDone core e1
  else s1.stepBegin core b e1 r

/-- The MMA that holds the array, with its block and residency. -/
def State.onArray (s : State) (core : Nat) : Option (MxEntry × Block × Residency) :=
  let c := s.core core
  match c.array with
  | none => none
  | some id => match c.mxq.find? (fun x => x.id = id) with
    | none => none
    | some e => match s.block? (tkBk e.tk), c.dir.find? (fun r => r.handle core = e.handle) with
      | some b, some r => some (e, b, r)
      | _, _ => none

/-! ### Fills and accumulator entries (R243, R253 to R255, R425) -/

/-- A pair whose other half is overwritten becomes Empty (R233). -/
def Core.breakPair (c : Core) (j : Nat) (written : List Nat) : Core :=
  let tag := (c.slot j).tag
  let other := if isLow16 tag then [j + 1] else if tag = 0x1F then [j - 1] else []
  (other.filter (fun k => !written.contains k)).foldl (fun c k => { c with slots := Sparse.erase c.slots k }) c

/-- A number of `n` bytes in a list from a position. -/
def numAt (bs : Array Byte) (i n : Nat) : Nat := leNat ((List.range n).map (fun k => bs.getD (i + k) 0))

/-- The slots that a canonical tile fills (R233, R236). -/
def fillSlot (at_ fmt : Nat) (bs : Array Byte) (poison : Bool) : Slot :=
  if at_ = 0 then
    { tag := fmt % 32, codes := (List.range 65536).map (fun i => (i, (bs.getD i 0).toNat))
      scales := (List.range 512).map (fun n => (n, (bs.getD (65536 + n) 0).toNat)), poison := poison }
  else
    { tag := if at_ = 1 then 0x1D else 0x1E, codes := (List.range 65536).map (fun i => (i, numAt bs (2 * i) 2))
      scales := (List.range 512).map (fun n => (n, 0x40)), poison := poison }

/-- An entry for which some slots have been filled. -/
def MxEntry.arrived (x : MxEntry) (bits : BitVec 32) : MxEntry := { x with awaits := x.awaits &&& ~~~bits }
/-- The entries of a core that are saved with their blocks learn of a fill too (R256). -/
def State.fillArrived (s : State) (core : Nat) (bits : BitVec 32) : State :=
  { s with
    saved := s.saved.map (fun x => if x.bound = some core then
      { x with entries := x.entries.map (·.arrived bits), slotPoison := x.slotPoison.filter (fun j => !bits.getLsbD j) } else x)
    blocks := Sparse.mapVals s.blocks (fun _ b => if b.core = core then { b with savedEntries := b.savedEntries.map (·.arrived bits) } else b) }

/-- RSFILL_COMPLETE (R243, R425): the slots are written, the filled bits set, and the bytes land on the barrier. -/
def State.fillDone (s : State) (core id : Nat) : State :=
  match (s.core core).mxq.find? (fun x => x.id = id) with
  | none => s
  | some e =>
    if e.op ≠ .rsfill ∨ !e.started ∨ (s.core core).matrixFenced then s
    else match s.block? (tkBk e.tk) with
    | none => s
    | some b =>
      let o := b.spbase + e.off
      let n := bTile e.at_
      let po := (s.scrPoisonIn core o n).isSome
      let x := fillSlot e.at_ e.fmt (s.scrBytes core o n).toArray po
      let js := e.fillSlots
      let s1 := (s.modCore core (fun c =>
        let c1 := js.foldl (fun c j => c.breakPair j js) c
        let slots := if e.at_ = 0 then Sparse.set c1.slots e.slot x
          else Sparse.set (Sparse.set c1.slots e.slot x) (e.slot + 1) { Slot.reset with tag := 0x1F, poison := po }
        let bits := js.foldl (fun m j => m ||| (1#32 <<< j)) 0#32
        { c1 with slots := slots, stamp := c1.stamp + 1, mxq := c1.mxq.map (·.arrived bits) })).fillArrived core
        (js.foldl (fun m j => m ||| (1#32 <<< j)) 0#32)
      let s2 := s1.modRes e.handle (fun r =>
        let bits := js.foldl (fun m j => m ||| (1#32 <<< (j - r.base))) 0#32
        let filled := r.filled ||| bits
        let all := decide (popCount filled.toNat 32 = r.cnt)
        { r with
          filled := filled, since := r.since ||| bits, stamp := (s.core core).stamp
          state := if all ∧ r.state = .filling then .valid else r.state })
      let c := b.scrCopy e.bar
      let s3 := match s2.block? (bkOf c.1 c.2.1) with
        | some d => s2.setObj c.1 (d.spbase + c.2.2) ((s2.obj c.1 (d.spbase + c.2.2)).landed n)
        | none => s2
      (s3.dropEntry core e).advance core

/-- The storage type of ACCLD and ACCST (R255): a format code as the copy engine's Table 12.4 has it. -/
def MxEntry.store (e : MxEntry) : Nat :=
  if e.at_ = 1 then 0x41 else if e.at_ = 2 then 0x42 else if e.fmt.testBit 5 then 0x40 else e.fmt % 32
/-- Bytes of an element of a storage format (Table 12.4). -/
def storeSize (code : Nat) : Nat :=
  if code = 0x40 then 4 else if code = 0x41 ∨ code = 0x42 then 2 else 1
/-- The value of a stored element (R81, R265). -/
def storeVal (code x : Nat) : FV :=
  if code = 0x40 then ofIeee fp32 x else if code = 0x41 then ofIeee bf16 x else if code = 0x42 then ofIeee fp16 x
  else b8Value (code % 32) x
/-- A value converted into a storage format with .rn (R83 to R85). -/
def storeRes (code : Nat) (v : FV) : Res :=
  if code = 0x40 then convIeee fp32 .rn v else if code = 0x41 then convIeee bf16 .rn v
  else if code = 0x42 then convIeee fp16 .rn v else convB8 (code % 32) .rn v

/-- ACCADD of two words (R254). -/
def accAdd (a b : Word) : Res :=
  let x := fv32 a
  let y := fv32 b
  let sn := sigFlags [x, y]
  if x.isNaN || y.isNaN then ⟨0x7FC00000, fNAN ||| sn⟩
  else
    let r := arAdd fp32 .rn x y
    if r.code % 2 ^ 31 = 0x7F800000 ∧ !x.isInf ∧ !y.isInf then ⟨r.code / 2 ^ 31 * 2 ^ 31 + 0x7F7FFFFF, fOVF⟩ else r

/-- The words of a tile row for an accumulator entry: unspecified where it was issued while an MMA on the tile was in flight (R110,
R253). -/
def State.accRow (s : State) (core tile : Nat) (open_ : Bool) (row : Nat) : List Word :=
  if open_ then (List.range 512).map (fun n => Config.accWord (s.fresh * 2 ^ 20 + tileKey tile row n))
  else (s.core core).tileRow tile row

/-- Writes words into a tile from the start of a row, with the poison of its rows. -/
def State.setTile (s : State) (core tile row : Nat) (ws : List Word) (clear poison : List Nat) : State :=
  s.modCore core (fun c =>
    { c with
      tiles := Sparse.setRun c.tiles (tileKey tile row 0) ws
      tilePoison := ((c.tilePoison.filter (fun r => !clear.contains r)) ++ poison).eraseDups })

/-- The effect of an accumulator entry on tiles and scratchpad, and its flags (R253 to R255, R425). What ACCST writes ends the release
sequences of its bytes (R99). -/
def State.accEffect (s : State) (core : Nat) (b : Block) (e : MxEntry) : State × FlagWord :=
  let open1 := e.racing
  let open2 := e.racing2
  let rows := (List.range e.rows).map (e.first + ·)
  let all := List.range 128
  let key (r : Nat) : Nat := e.tile * 128 + r
  let key2 (r : Nat) : Nat := e.tile2 * 128 + r
  let bad (k : Nat) : Bool := (s.core core).tilePoison.contains k
  let code := e.store
  let sz := storeSize code
  let at_ (r : Nat) : Nat := b.spbase + e.off + (r - e.first) * 512 * sz
  match e.op with
  | .accz => (s.setTile core e.tile e.first (List.replicate (512 * e.rows) 0) (rows.map key) [], 0)
  | .accmov =>
    (s.setTile core e.tile 0 (all.flatMap (s.accRow core e.tile2 (open1 || open2))) (all.map key)
      ((all.filter (fun r => bad (key2 r))).map key), 0)
  | .accadd =>
    let rs := all.flatMap (fun r =>
      if open1 || open2 then (s.accRow core e.tile true r).map (fun w => (⟨w.toNat, 0⟩ : Res))
      else ((s.accRow core e.tile false r).zip (s.accRow core e.tile2 false r)).map (fun x => accAdd x.1 x.2))
    (s.setTile core e.tile 0 (rs.map (fun x => BitVec.ofNat 32 x.code)) (all.map key)
      ((all.filter (fun r => bad (key r) || bad (key2 r))).map key), rs.foldl (fun w x => w ||| x.flags) 0)
  | .accld =>
    let rs := rows.flatMap (fun r =>
      if open1 then (s.accRow core e.tile true r).map (fun w => (⟨w.toNat, 0⟩ : Res))
      else (chunks sz (s.scrBytes core (at_ r) (512 * sz)) 512).map (fun x => convIeee fp32 .rn (storeVal code x)))
    (s.setTile core e.tile e.first (rs.map (fun x => BitVec.ofNat 32 x.code)) (rows.map key)
      ((rows.filter (fun r => (s.scrPoisonIn core (at_ r) (512 * sz)).isSome)).map key),
      rs.foldl (fun w x => w ||| x.flags) 0)
  | _ =>
    rows.foldl (fun acc r =>
      let rs := (s.accRow core e.tile open1 r).map (fun y =>
        if code = 0x40 then (⟨y.toNat, 0⟩ : Res) else storeRes code (fv32 y))
      let s1 := acc.1.placeWrite (precedence 3 (s.reqRank e.tk)) (1 + core) (at_ r) (rs.flatMap (fun x => leBytes sz x.code))
        (fun s a l => (s.setScr core a l).endReleases (scrSpan (b.core, b.bslot, a - b.spbase)) l.length)
      let s2 := if bad (key r) then
          s1.modCore core (fun c => { c with scrPoison :=
            ((List.range (512 * sz / 16)).map (at_ r / 16 + ·)).foldl (fun m g => Sparse.set m g 3) c.scrPoison })
        else s1
      (s2, rs.foldl (fun w x => w ||| x.flags) acc.2)) (s, 0)

/-- A thread whose accumulator entry has completed goes on when its stitch has entered (R239, R253). -/
def Thread.entryDone (t : Thread) (id : Nat) : Thread :=
  match t.wait with
  | .matrixEntry i k => if i = id then { t.retire with wait := .mates k } else t
  | _ => t

/-- ACCUMULATOR_ENTRY_COMPLETE (R253 to R255): the entry takes effect, its flags are raised, and its thread goes on. -/
def State.accDone (s : State) (core id : Nat) : State :=
  match (s.core core).mxq.find? (fun x => x.id = id) with
  | none => s
  | some e =>
    if !e.isAcc ∨ !e.started ∨ (s.core core).matrixFenced then s
    else match s.block? (tkBk e.tk) with
    | none => s
    | some b =>
      let (s1, w) := s.accEffect core b e
      let s2 := ((s1.landFlags e.tk e.home w).dropEntry core e).bumpFresh
      (s2.modThread e.tk (fun t => (t.hasSet (s.now core) e.home w).entryDone e.id)).advance core

end Sys2Proof.Machine
end

