-- ==== Sys2Proof/Machine/System.lean ====
section
/-!
DEFINITION. Class 110 but PUSH (R203 to R207): TRAP, BRK, TRET, the control registers of Table 9.5 with the effects of
their writes (R53, R61, R208, R248, R299, R300, R350, R369), and the counters of a slice.
-/
namespace Sys2Proof.Machine

/-! ### Traps and breakpoints (R203) -/

/-- The PC that a record of a thread gives as its next instruction's: a thread that waits at BAR goes on after it. -/
def Thread.recordPc (t : Thread) : BitVec 56 := match t.wait with | .bar _ _ => pcNext t.pc | _ => t.pc

/-- The halt record of a thread (Table 21.7). -/
def haltRecord (clk tk why : Nat) (t : Thread) (preempt : Bool) : List Byte :=
  let pend := t.pendFault
  leBytes 8 (t.recordPc.toNat + if t.mode = .trap then 2 ^ 63 else 0) ++
    leBytes 1 why ++ leBytes 1 (bit1 pend.isSome + 2 * bit1 preempt) ++
    leBytes 1 (match pend with | some i => i.cause | none => 0) ++ leBytes 1 0 ++ leBytes 2 (tkThr tk) ++
    leBytes 1 (tkSlotEntry tk) ++ leBytes 1 0 ++ leBytes 8 (match pend with | some i => i.tval | none => 0) ++
    leBytes 8 clk

/-- TRAP on one thread (R203): it retires, so TPC is the next instruction. -/
def trapBody (f : Fields) (tk : Nat) (_ : Thread) (_ : Block) (s : State) : State :=
  s.takeTrap tk ⟨0x12, f.imm.toNat, 0⟩ s.cur.id true
/-- TRAP (R203). -/
def execTrap (f : Fields) (s : State) : Out := .next (issueAll .trap f (trapBody f) s)

/-- BRK on one thread (R203): with breakpoints armed the thread halts for the debugger. -/
def brkBody (f : Fields) (tk : Nat) (t : Thread) (_ : Block) (s : State) : State :=
  if s.brk then (s.waitFor tk .halted).emit (.halt (haltRecord s.clk tk 1 t false))
  else s.takeTrap tk ⟨0x13, f.imm.toNat, 0⟩ s.cur.id false
/-- BRK (R203). -/
def execBrk (f : Fields) (s : State) : Out := .next (issueAll .brk f (brkBody f) s)

/-- TRET on one thread (R203, R354); with an ASID of 0 and in user mode it stays in user mode and goes to TPC. -/
def tretBody (tk : Nat) (_ : Thread) (_ : Block) (s : State) : State := s.tret tk
/-- TRET (R203). -/
def execTret (f : Fields) (s : State) : Out := .next (issueAll .tret f tretBody s)

/-! ### Reads of control registers (Table 9.5) -/

/-- SLHASHn as it reads (Table 3.7). -/
def slhashWord (gen : Nat) (fm : BitVec 29) (sm : BitVec 16) : Nat :=
  gen % 2 ^ 16 * 2 ^ 48 + fm.toNat * 2 ^ 16 + sm.toNat
/-- RSQUOTA as it reads (Table 11.9). -/
def Core.quotaWord (c : Core) : Nat :=
  bit1 c.quotaRefused * 2 ^ 62 + c.quotaSel * 2 ^ 32 + c.pinnedBy c.quotaSel * 2 ^ 8 + c.quotaOf c.quotaSel
/-- PBUDGET as it reads (Table 14.1): with DET = 1 ratio and cap are 8 (R44, R297). -/
def Core.budgetWord (c : Core) : Nat :=
  bit1 c.droop * 2 ^ 40 + (if c.det then 8 else c.pcap) * 2 ^ 36 + (if c.det then 8 else c.nrat) * 2 ^ 32 + c.est % 2 ^ 16 * 2 ^ 16 + c.budget
/-- SMPCTL as it reads (Table 9.7). -/
def Core.smpctlWord (c : Core) : Nat :=
  c.period * 2 ^ 16 + c.slmask.toNat * 4 + bit1 c.det * 2 + bit1 c.en

/-- The value of a control register for a thread of a core (R204, R205); TLBINV reads 0 (R380). -/
def State.crValue (s : State) (core : Nat) (t : Thread) (num : Nat) : Nat :=
  let c := s.core core
  let x := s.site (core / 4)
  match num with
  | 0x000 => s.devno
  | 0x001 => s.asidbase
  | 0x008 => s.tvecsel
  | 0x009 => (s.handler s.tvecsel).toNat
  | 0x010 => t.tpc.toNat
  | 0x011 => t.tcause.toNat
  | 0x012 => t.tval.toNat
  | 0x013 => t.tinfo.toNat
  | 0x020 => slhashWord x.gen0 x.fmask0 x.smask0
  | 0x021 => slhashWord x.gen1 x.fmask1 x.smask1
  | 0x022 => x.rthresh
  | 0x023 => x.wthresh
  | 0x030 => c.quotaWord
  | 0x040 => c.budgetWord
  | 0x041 => c.drhold
  | 0x050 => c.smpctlWord
  | 0x051 => c.smpBase
  | 0x052 => c.smpSize
  | 0x053 => c.smpWr
  | 0x054 => c.smpRd
  | 0x055 => c.smpDrop
  | _ => 0

/-- Serialisation (R204): every earlier access of the thread has returned or is performed at .pkg. -/
def State.serialOk (s : State) (tk : Nat) : Bool :=
  s.reqs.all (fun r => r.tk != tk || r.doneAt .pkg (s.reqOwn r))

/-- CRRD on one thread (R204): its result is ready after a free time, in deterministic mode too (R44). -/
def crrdBody (f : Fields) (tk : Nat) (t : Thread) (b : Block) (s : State) : State :=
  if !s.serialOk tk then s.waitFor tk .serial
  else
    let x := s.crValue (tkCore tk) t (Fields.crNum f)
    (s.setThread tk (((t.retire).deliver .crrd b.limits f (outVal x)).readyFrom .crrd b.limits f
      (s.now (tkCore tk) + Config.latency s.fresh))).bumpFresh
/-- CRRD (R204). -/
def execCrrd (f : Fields) (s : State) : Out := .next (issueAll .crrd f (crrdBody f) s)

/-! ### TLBINV (R53) -/

/-- Whether a TLBINV value matches a page of an ASID (Table 3.5). -/
def tlbinvHits (v asid first pages : Nat) : Bool :=
  (v.testBit 13 || asid == v % 4096) && (v.testBit 12 || decide (first ≤ bitsOf v 16 40 ∧ bitsOf v 16 40 < first + pages))
/-- Every TLB and the placement table of the package drop the matching entries (R53, R54). -/
def State.tlbinv (s : State) (v : DWord) : State :=
  let keep (l : List TlbEntry) : List TlbEntry := l.filter (fun e => !tlbinvHits v.toNat e.asid e.vpn e.pages)
  { s with
    cores := Sparse.mapVals s.cores (fun _ c => { c with tlb := keep c.tlb })
    sites := Sparse.mapVals s.sites (fun _ x => { x with tlb := keep x.tlb })
    placement := s.placement.filter (fun p => !tlbinvHits v.toNat (p.1 / 2 ^ 40) p.2.2.1 p.2.2.2) }
/-- TLBINV_WRITE (R53). -/
def execTlbinvWrite (_ : Nat) (v : DWord) (s : State) : Out := .next (s.tlbinv v)

/-- Whether a TLBINV with identity `id` and value `v` completes: the walks that began before it have finished, and the accesses and
engine commands that translated before it are performed (R53), held stores of saved blocks that it matches too (R111). -/
def State.effectDone (s : State) (id v : Nat) : Bool :=
  s.saved.all (fun x => x.stores.all (fun r => decide (id ≤ r.id) || !tlbinvHits v x.block.asid (r.trap.tval / 65536) 1)) &&
  s.walks.all (fun w => decide (id ≤ w.id)) && s.reqs.all (fun r => decide (id ≤ r.id) || r.stage == .done) &&
    s.sites.all (fun x => x.2.running.all (fun r => decide (id ≤ r.id) || r.pieces == []))

/-! ### SLHASH (R61, R411) and lines that change their home -/

/-- Writes back and drops every line of a site that satisfies a test and that the present map homes elsewhere (R61, step 3):
its copies go first. -/
def State.moveLines (s : State) (site : Nat) (p : Nat → Bool) : State :=
  (s.lines.filter (fun c => c.2.slice / 16 == site && p (c.1 * 128) && c.2.slice != s.sliceOfPa (c.1 * 128))).foldl
    (fun s c => s.evictLine c.1) s
/-- The sum of set bits is a power of two that R58 allows. -/
def maskOk (m : BitVec 16) : Bool := [1, 2, 4, 8, 16].contains (popCount16 m)
/-- A CRWR to SLHASHn of a site (R61): ignored with a bad SMASK (R411); GEN rises and the lines of the domain move. -/
def State.slhash (s : State) (site n : Nat) (v : DWord) : State :=
  let sm := v.extractLsb' 0 16
  let fm := v.extractLsb' 16 29
  if !maskOk sm then s
  else
    let s1 := s.modSite site (fun x =>
      if n = 1 then { x with smask1 := sm, fmask1 := fm, gen1 := (x.gen1 + 1) % 2 ^ 16 }
      else { x with smask0 := sm, fmask0 := fm, gen0 := (x.gen0 + 1) % 2 ^ 16 })
    s1.moveLines site (fun pa =>
      let x := s1.site site
      x.frameMode (frameOf (paOfs pa)) != 1 && x.domainOf (paOfs pa) == n % 2)
/-- SLHASH_WRITE (R61). -/
def execSlhashWrite (site n : Nat) (v : DWord) (s : State) : Out := .next (s.slhash site n v)

/-! ### RSQUOTA (R248) -/

/-- A write of RSQUOTA with SET = 1. -/
def State.quotaSet (s : State) (core : Nat) (v : DWord) : State :=
  s.modCore core (fun c =>
    let asid := bitsOf v.toNat 32 12
    let q := bitsOf v.toNat 0 6
    let sum := ((c.quotas.filter (fun x => x.1 != asid)).map (·.2)).sum + q
    if q > 32 ∨ sum > 32 then { c with quotaSel := asid, quotaRefused := true }
    else { c with quotaSel := asid, quotaRefused := false, quotas := if q = 0 then Sparse.erase c.quotas asid else Sparse.set c.quotas asid q })
/-- A write of RSQUOTA with SET = 0. -/
def State.quotaSelect (s : State) (core : Nat) (v : DWord) : State :=
  s.modCore core (fun c => { c with quotaSel := bitsOf v.toNat 32 12 })
/-- RSQUOTA_SET (R248). -/
def execRsquotaSet (core : Nat) (v : DWord) (s : State) : Out := .next (s.quotaSet core v)
/-- RSQUOTA_SELECT (R248). -/
def execRsquotaSelect (core : Nat) (v : DWord) (s : State) : Out := .next (s.quotaSelect core v)

/-! ### Sampler registers (R44, R208, R369) -/

/-- A write of SMPCTL (R208, R369): ignored if it would start sampling with a bad period or ring; DET = 1 clears predictors
and ages (R44); sampling that starts begins with the lowest thread (R209). -/
def State.smpctl (s : State) (core : Nat) (v : DWord) : State :=
  let c := s.core core
  let en := v.getLsbD 0
  let period := bitsOf v.toNat 16 24
  if en ∧ (period = 0 ∨ c.smpBase % 2 ^ 36 + 16 * c.smpSize > 2 ^ 36) then s
  else
    let det := v.getLsbD 1
    let rises := en && !c.en
    let s1 := s.setCore core
      { c with
        period := period, slmask := v.extractLsb' 2 6, det := det, en := en, epoch := if en then s.now core else c.epoch
        offAt := if en then none else if c.en then some s.clk else c.offAt }
    (List.range 6).foldl (fun s sl =>
      s.modSlice core sl (fun x =>
        { x with
          predictor := if det then [] else x.predictor
          table := if det then x.table.map (fun e => { e with age := 0 }) else x.table
          sampled := if rises then none else x.sampled })) s1
/-- A write of SMPBASE (R369). -/
def State.smpbase (s : State) (core : Nat) (v : DWord) : State :=
  let base := bitsOf v.toNat 12 40 * 4096
  s.modCore core (fun c =>
    if c.en ∨ paDev base ≠ s.devno ∨ paSpace base ≠ 0 then c else { c with smpBase := base })
/-- A write of SMPSIZE (R369). -/
def State.smpsize (s : State) (core : Nat) (v : DWord) : State :=
  let n := v.toNat
  s.modCore core (fun c =>
    if c.en ∨ n < 16 ∨ n > 2 ^ 24 ∨ 2 ^ n.log2 ≠ n then c else { c with smpSize := n })
/-- A write of SMPWR (R369). -/
def State.smpwr (s : State) (core : Nat) (v : DWord) : State :=
  s.modCore core (fun c => if c.en then c else { c with smpWr := v.toNat % 2 ^ 32 })
/-- A write of SMPRD (R208). -/
def State.smprd (s : State) (core : Nat) (v : DWord) : State := s.modCore core (fun c => { c with smpRd := v.toNat % 2 ^ 32 })
/-- A write of SMPDROP (R208). -/
def State.smpdrop (s : State) (core : Nat) (v : DWord) : State :=
  s.modCore core (fun c => { c with smpDrop := v.toNat % 2 ^ 32 })
/-- SMPCTL_WRITE (R369). -/
def execSmpctlWrite (core : Nat) (v : DWord) (s : State) : Out := .next (s.smpctl core v)
/-- SMPBASE_WRITE (R369). -/
def execSmpbaseWrite (core : Nat) (v : DWord) (s : State) : Out := .next (s.smpbase core v)
/-- SMPSIZE_WRITE (R369). -/
def execSmpsizeWrite (core : Nat) (v : DWord) (s : State) : Out := .next (s.smpsize core v)
/-- SMPWR_WRITE (R208). -/
def execSmpwrWrite (core : Nat) (v : DWord) (s : State) : Out := .next (s.smpwr core v)
/-- SMPRD_WRITE (R369). -/
def execSmprdWrite (core : Nat) (v : DWord) (s : State) : Out := .next (s.smprd core v)
/-- SMPDROP_WRITE (R208). -/
def execSmpdropWrite (core : Nat) (v : DWord) (s : State) : Out := .next (s.smpdrop core v)

/-! ### TPC, TVEC and the registers without an effect of their own -/

/-- A write of TPC (R350). -/
def State.writeTpc (s : State) (tk : Nat) (v : DWord) : State :=
  s.modThread tk (fun t => { t with tpc := v &&& 0x00FFFFFFFFFFFFFC#64 })
/-- TPC_WRITE (R350). -/
def execTpcWrite (tk : Nat) (v : DWord) (s : State) : Out := .next (s.writeTpc tk v)
/-- A write of TVEC (R206): the vector of the ASID in TVECSEL. -/
def State.writeTvec (s : State) (v : DWord) : State :=
  { s with tvec := Sparse.set s.tvec s.tvecsel ((v &&& 0x00FFFFFFFFFFFFFC#64).setWidth 56) }
/-- TVEC_WRITE (R206). -/
def execTvecWrite (v : DWord) (s : State) : Out := .next (s.writeTvec v)

/-- A write of a control register that has no behaviour of its own (R3, R204, R299, R300, R350); a write of a read-only one
changes nothing (R380). -/
def State.crPlain (s : State) (core tk num : Nat) (v : DWord) : State :=
  let n := v.toNat
  match num with
  | 0x001 => { s with asidbase := bitsOf n 16 36 * 65536 }
  | 0x008 => { s with tvecsel := bitsOf n 0 12 }
  | 0x011 => s.modThread tk (fun t => { t with tcause := BitVec.ofNat 64 (n % 256) })
  | 0x012 => s.modThread tk (fun t => { t with tval := v })
  | 0x013 => s.modThread tk (fun t => { t with tinfo := BitVec.ofNat 64 (n % 2 ^ 32) })
  | 0x022 => s.modSite (core / 4) (fun x => { x with rthresh := n % 65536 })
  | 0x023 => s.modSite (core / 4) (fun x => { x with wthresh := n % 65536 })
  | 0x040 => s.modCore core (fun c => { c with budget := n % 65536 })
  | 0x041 => s.modCore core (fun c => { c with drhold := n % 65536 })
  | _ => s
/-- CONTROL_REGISTER_WRITE (R204). -/
def execControlRegisterWrite (core tk num : Nat) (v : DWord) (s : State) : Out := .next (s.crPlain core tk num v)

/-- The effect of a CRWR (R204). -/
def State.crWrite (s : State) (core tk num : Nat) (v : DWord) : State :=
  match num with
  | 0x002 => s.tlbinv v
  | 0x009 => s.writeTvec v
  | 0x010 => s.writeTpc tk v
  | 0x020 => s.slhash (core / 4) 0 v
  | 0x021 => s.slhash (core / 4) 1 v
  | 0x030 => if v.getLsbD 63 then s.quotaSet core v else s.quotaSelect core v
  | 0x050 => s.smpctl core v
  | 0x051 => s.smpbase core v
  | 0x052 => s.smpsize core v
  | 0x053 => s.smpwr core v
  | 0x054 => s.smprd core v
  | 0x055 => s.smpdrop core v
  | _ => s.crPlain core tk num v

/-- CRWR on one thread (R204): serialised, and complete when its effect has taken place. Of an SLHASH write steps 1 and 3 of R61 take no
time, in deterministic mode too, where R44 leaves their duration open (DESIGN CHOICE, log 67). -/
def crwrBody (f : Fields) (tk : Nat) (t : Thread) (b : Block) (s : State) : State :=
  match t.wait with
  | .effect id v => if s.effectDone id v then s.setThread tk t.retire else s
  | _ =>
    if !s.serialOk tk then s.waitFor tk .serial
    else
      let s1 := s.crWrite (tkCore tk) tk (Fields.crNum f) (BitVec.ofNat 64 (opndA .crwr t b f))
      if (Fields.crNum f) = 0x002 then (s1.waitFor tk (.effect s1.nextId (opndA .crwr t b f))).bumpId
      else s1.modThread tk Thread.retire
/-- CRWR (R204). -/
def execCrwr (f : Fields) (s : State) : Out := .next (issueAll .crwr f (crwrBody f) s)

/-! ### Counters (R207) -/

/-- CNTRD on one thread: a 64-bit counter of the thread's slice. -/
def cntrdBody (f : Fields) (tk : Nat) (t : Thread) (b : Block) (s : State) : State :=
  let x := Sparse.getD (s.slice (tkCore tk) (sliceOfThr (tkThr tk))).counters (f.imm.toNat % 256) 0 % 2 ^ 64
  (s.setThread tk (((t.retire).deliver .cntrd b.limits f (outVal x)).readyFrom .cntrd b.limits f
    (s.due (tkCore tk) 4))).bumpFresh
/-- CNTRD (R207). -/
def execCntrd (f : Fields) (s : State) : Out := .next (issueAll .cntrd f (cntrdBody f) s)

/-- UNASSIGNED_OPCODE (R130, R373): cause 0x01 with SUB 0 and FIELD 0 for each thread whose guard is true. -/
def execUnassignedOpcode (opc : Byte) (f : Fields) (s : State) : Out :=
  .next (s.cur.members.foldl
    (issueMember false f (fun _ _ => some (rejectInfo opc.toNat 0 0 opc.toNat)) (fun _ _ _ s => s)) s)

end Sys2Proof.Machine
end

