-- ==== Sys2Proof/Machine/Engine.lean ====
section
/-!
DEFINITION. PUSH and what every engine shares (chapter 12, R427 to R434, R467): queues, the command header and its checks,
the command graph, an engine's own global accesses, pieces that are written and landed, completion and abandonment.
-/
namespace Sys2Proof.Machine

/-! ### Command fields (Tables 12.1 and 12.2) -/

/-- A little-endian field of a command. -/
def Cmd.num (c : Cmd) (i n : Nat) : Nat := leNat ((c.bytes.drop i).take n)
/-- OP. -/
def Cmd.op (c : Cmd) : Nat := c.num 0 1
/-- FLAGS. -/
def Cmd.flags (c : Cmd) : Nat := c.num 1 1
/-- REL. -/
def Cmd.rel (c : Cmd) : Bool := c.flags.testBit 0
/-- GNV. -/
def Cmd.gnv (c : Cmd) : Bool := c.flags.testBit 1
/-- ERE. -/
def Cmd.ere (c : Cmd) : Bool := c.flags.testBit 2
/-- NODE. -/
def Cmd.node (c : Cmd) : Nat := c.num 4 1
/-- PRED. -/
def Cmd.pred (c : Cmd) : Nat := c.num 5 1
/-- SUCC. -/
def Cmd.succIx (c : Cmd) : Nat := c.num 6 2
/-- The scratchpad address of the barrier object. -/
def Cmd.bar (c : Cmd) : Nat :=
  let b := c.num 63 1
  b / 128 * 2 ^ 31 + b % 8 * 2 ^ 28 + c.num 2 2 * 16
/-- Where a copy or an attention decode reads global memory: the first address of each of its arrays (R265, R273). -/
def Cmd.reads (c : Cmd) : List Nat := if c.op = 1 ∨ c.op = 0x20 then [c.num 8 8, c.num 16 8] else []
/-- Whether some byte of a range is not zero. -/
def Cmd.nonzero (c : Cmd) (i n : Nat) : Bool := (c.bytes.drop i).take n |>.any (· != 0)

/-- The queues that carry an opcode (Table 12.3). -/
def opQueues (op : Nat) : List Nat :=
  match op with
  | 1 | 2 | 3 => [0, 1]
  | 0x10 => [2, 3, 4, 5]
  | 0x20 => [6]
  | _ => []

/-! ### Queues and PUSH (R258 to R260) -/

/-- A queue of a core. -/
def Core.queueOf (c : Core) (qn : Nat) : List Cmd := Sparse.getD c.queues qn []
/-- Adds a command to a queue of a core. -/
def State.enqueue (s : State) (core qn : Nat) (c : Cmd) : State :=
  s.modCore core (fun x => { x with queues := Sparse.set x.queues qn (x.queueOf qn ++ [c]) })
/-- Whether a queue has a free entry; in deterministic mode every PUSH is taken (R44). -/
def Core.queueRoom (c : Core) (qn : Nat) : Bool := decide ((c.queueOf qn).length < 32) || c.det

/-- PUSH on one thread (R259): the sixteen registers become a command, or the predicate tells that none was taken; the commands of
restored blocks enter first (R275). -/
def pushBody (f : Fields) (tk : Nat) (t : Thread) (b : Block) (s : State) : State :=
  let qn := f.low4
  let room := (s.core b.core).queueRoom qn && s.blocks.all (fun x => x.2.core != b.core || x.2.savedCmds.all (fun c => c.qn != qn))
  let t1 := ((t.retire).setPred (f.d.toNat % 8) (!room)).readyFrom .push b.limits f (s.due b.core 4)
  if !room then (s.setThread tk t1).bumpFresh
  else
    let bytes := leBytes 64 (t.regsVal f.a.idx.toNat 16)
    let rel := ((bytes.getD 1 0).toNat).testBit 0
    let c : Cmd :=
      { id := s.nextId, bytes := bytes, tk := tk, qn := qn, asid := b.asid, home := flagHome t
        before := if rel then s.ownWrites tk ++ s.ownAcquires tk ++ t.hb else [], mark := b.marks, succ := none, released := false, heldSince := 0
        due := s.due b.core 2048 }
    (((s.setThread tk t1).enqueue b.core qn c).bumpId).bumpFresh
/-- PUSH (R259). -/
def execPush (f : Fields) (s : State) : Out := .next (issueAll .push f (pushBody f) s)

/-! ### The barrier object of a command -/

/-- The scratchpad check of a range that an engine names (R398, R399): the failing address. -/
def Block.engCheck (b : Block) (a n : Nat) : Option Nat :=
  if a ≥ 2 ^ 32 then some a else (b.scrCheck a n).map (·.2.2)

/-- The core and offset of a command's barrier object while it is reachable. -/
def State.barAt (s : State) (c : Cmd) : Option (Nat × Nat) :=
  match s.block? (tkBk c.tk) with
  | none => none
  | some b =>
    if (b.engCheck c.bar 16).isSome then none
    else
      let x := b.scrCopy c.bar
      (s.copyBlock c.tk x).map (fun d => (x.1, d.spbase + x.2.2))

/-- TVAL and TINFO of causes 0x10 and 0x17 (Table 24.8). -/
def cmdInfo (cause : Nat) (c : Cmd) (sub byte where_ : Nat) : TrapInfo :=
  ⟨cause, sub * 2 ^ 60 + c.qn * 2 ^ 56 + where_ % 2 ^ 56, c.num 2 2 * 2 ^ 16 + byte * 256 + c.op⟩

/-- A command is abandoned (R429): its barrier is marked, and its thread hears of it if ERE is set or the barrier is not
reachable. -/
def State.abandon (s : State) (c : Cmd) (sub byte where_ : Nat) : State :=
  match s.barAt c with
  | some (core, o) =>
    let s1 := s.setObj core o (s.obj core o).abandon
    if c.ere then s1.report c.tk (cmdInfo 0x10 c sub byte where_) else s1
  | none => s.report c.tk (cmdInfo 0x10 c sub byte where_)

/-! ### The command graph (R264, R433) -/

/-- A graph node of a block. -/
def Block.node (b : Block) (n : Nat) : Node := Sparse.getD b.nodes n ⟨0, none⟩

/-- Releases a held command whose count is 0 into its queue, if an entry is free. -/
def State.releaseNode (s : State) (bk n : Nat) : State :=
  match s.block? bk with
  | none => s
  | some b =>
    let x := b.node n
    match x.held with
    | none => s
    | some c =>
      if x.count > 0 || !(s.core b.core).queueRoom c.qn then s
      else
        (s.setBlock bk { b with nodes := Sparse.set b.nodes n ⟨0, none⟩ }).enqueue b.core c.qn { c with released := true }
/-- Releases every held command of a core that can be (R264). -/
def State.releaseHeld (s : State) (core : Nat) : State :=
  (s.blocks.filter (fun b => b.2.core == core)).foldl
    (fun s b => b.2.nodes.foldl (fun s n => s.releaseNode b.1 n.1) s) s

/-- A command arrives at its node (R264, R433). -/
def State.arriveNode (s : State) (c : Cmd) : State :=
  let bk := tkBk c.tk
  let x : Node := match s.block? bk with | some b => b.node c.node | none => ⟨0, none⟩
  let put (n : Node) : State := s.modBlock bk (fun b => { b with nodes := Sparse.set b.nodes c.node n })
  if x.held.isSome then
    let s1 := match s.barAt c with
      | some (core, o) => s.setObj core o (s.obj core o).abandon
      | none => s
    s1.report c.tk (cmdInfo 0x17 c 0 0 c.node)
  else if c.pred = 0 ∧ x.count < 0 then
    ((put ⟨0, some c⟩).releaseNode bk c.node).report c.tk (cmdInfo 0x17 c 1 0 c.node)
  else (put ⟨x.count + c.pred, some c⟩).releaseNode bk c.node

/-- A completed command subtracts 1 from its successors' counts (R264). -/
def State.signalNodes (s : State) (bk : Nat) (mask : BitVec 64) : State :=
  ((List.range 64).filter mask.getLsbD).foldl (fun s n =>
    (s.modBlock bk (fun b => { b with nodes := Sparse.set b.nodes n { (b.node n) with count := (b.node n).count - 1 } })).releaseNode
      bk n) s

/-- The successor mask of a command: a word of the pushing block's own scratchpad, read when its queue gives it up. -/
def State.readMask (s : State) (c : Cmd) (b : Block) : BitVec 64 :=
  if c.succIx = 0xFFFF ∨ 8 * c.succIx + 8 > b.spsize then 0
  else BitVec.ofNat 64 (leNat (s.scrBytes b.core (b.spbase + 8 * c.succIx) 8))

/-! ### Taking a command up (R260, R263, R428) -/

/-- Checks 1 to 4 of Table 24.7: subcode, byte and WHERE. -/
def headerCheck (b : Block) (c : Cmd) : Option (Nat × Nat × Nat) :=
  if !(opQueues c.op).contains c.qn then some (0, 0, 0)
  else if c.flags / 8 ≠ 0 then some (1, 1, 0)
  else if !c.gnv && c.node != 0 then some (1, 4, 0)
  else if !c.gnv && c.pred != 0 then some (1, 5, 0)
  else if bitsOf (c.num 63 1) 3 4 ≠ 0 ∨ (c.num 63 1 < 128 ∧ c.num 63 1 % 8 ≠ 0) then some (1, 63, 0)
  else match b.engCheck c.bar 16 with
  | some a => some (5, 2, a)
  | none => if c.succIx ≠ 0xFFFF ∧ 8 * c.succIx + 8 > b.spsize then some (2, 6, 0) else none

/-- The first scratchpad range that fails, with its field's byte (check 7). -/
def rangeCheck (b : Block) (rs : List (Nat × Nat × Nat)) : Option (Nat × Nat × Nat) :=
  rs.findSome? (fun r => (b.engCheck r.2.1 r.2.2).map (fun a => (5, r.1, a)))

/-- Whether a command may be passed to its engine (R103, R108): with REL when the writes before the PUSH are performed, so that it reads
them on other devices too; and behind the transfers that its site sent over the Hem before the PUSH, since its own accesses follow
them there (R14). -/
def State.cmdReady (s : State) (c : Cmd) : Bool :=
  !c.before.any s.isSaved && !s.behindMarker (tkBk c.tk) c.mark && s.reqs.all (fun e =>
    (!c.before.contains e.id || (e.stage == .done && e.doneAt .pkg (s.reqOwn e))) &&
    !(tkCore e.tk / 4 == tkCore c.tk / 4 && e.hem.isSome && e.stage != .done && decide (e.id < c.id)))

/-- The command that a queue gives up next: the first whose block is not being saved, if it may go. -/
def State.headCmd (s : State) (core qn : Nat) : Option Cmd :=
  match ((s.core core).queueOf qn).find? (fun c => match s.block? (tkBk c.tk) with | some b => !b.stopping | none => false) with
  | some c => if s.cmdReady c then some c else none
  | none => none
/-- Removes a command from its queue; entries that free let held commands go (R264). -/
def State.popCmd (s : State) (core : Nat) (c : Cmd) : State :=
  (s.modCore core (fun x =>
    { x with queues := Sparse.set x.queues c.qn ((x.queueOf c.qn).filter (fun y => y.id != c.id)) })).releaseHeld core

/-- What abandons a command as its engine takes it up, if anything does: subcode, byte and WHERE (Table 24.7); `body` are the checks 5 to 7
of an opcode among `ops`. -/
def cmdFault (b : Block) (c : Cmd) (ops : List Nat) (body : Block → Cmd → Option (Nat × Nat × Nat)) : Option (Nat × Nat × Nat) :=
  if c.gnv && !c.released then (if c.node ≥ 64 then some (1, 4, 0) else none)
  else match headerCheck b c with
  | some e => some e
  | none => if ops.contains c.op then body b c else none

/-- An engine takes up the head of a queue: it is abandoned, arrives at its graph node, or, if its opcode is among `ops`, is
started. -/
def State.takeUp (s : State) (core : Nat) (c : Cmd) (ops : List Nat) (body : Block → Cmd → Option (Nat × Nat × Nat))
    (start : State → Cmd → Block → State) : State :=
  match s.block? (tkBk c.tk) with
  | none => s
  | some b =>
    let given := { c with succ := some (match c.succ with | some m => m | none => s.readMask c b) }
    match cmdFault b c ops body with
    | some (sub, byte, w) => (s.popCmd core c).abandon c sub byte w
    | none =>
      if c.gnv && !c.released then (s.popCmd core c).arriveNode { given with heldSince := s.clk }
      else if ops.contains c.op then start (s.popCmd core c) given b
      else s

/-! ### An engine's own global accesses (R261, R428) -/

/-- The runs of `n` bytes at an address that do not cross a line: address and length. -/
def lineRuns (a n : Nat) : List (Nat × Nat) :=
  if n = 0 then []
  else (List.range ((a + n - 1) / 128 - a / 128 + 1)).map (fun i =>
    let lo := max a (128 * (a / 128 + i))
    (lo, min (a + n) (128 * (a / 128 + i + 1)) - lo))

/-- The page of an engine's access: subcode 3 without a translation, 4 without permission, for device-type memory, and for
a near-memory unit outside the normal DRAM of its own site (R271). -/
def State.engPage (s : State) (core asid : Nat) (unit : Bool) (w : Bool) (va : Nat) : Except Nat TlbEntry :=
  if va ≥ 2 ^ 56 then .error 3
  else match s.walkAt core asid (va / 65536 * 65536) with
  | .fail _ _ => .error 3
  | .ok e =>
    if (asid != 0 && !e.u) || (w && !e.w) || e.mt == 2 then .error 4
    else if unit && (e.mt != 0 || !s.ownDram e.base || paSite e.base != core / 4) then .error 4
    else .ok e

/-- The walk of an engine's access (R52). -/
def State.engWalk (s : State) (core asid va : Nat) : State :=
  if va ≥ 2 ^ 56 then s else s.walkNow core asid (va / 65536 * 65536)

/-- A byte with the ORIGIN of poison that it depends on. -/
abbrev PByte := Byte × Option Nat
/-- The first poison among bytes. -/
def poisonAmong (l : List PByte) : Option Nat := l.findSome? (·.2)

/-- Whether another device refuses an engine's access (R315): what its filter holds is a free value (log 21). -/
def State.refusedEng (s : State) (pa : Nat) : Bool := paDev pa != s.devno && !Config.remotePasses s.fresh pa

/-- One run of an engine's read at its home slice; a refused one is answered as poison of ORIGIN 5 (R315). -/
def State.engReadRun (s : State) (reader pa n : Nat) (unc : Bool) : State × List PByte :=
  let s1 := s.touchHome pa unc reader
  let cut := match s1.unreachable (reader / 4) pa with | some o => some o | none => if s1.refusedEng pa then some 5 else none
  (s1, ((s1.readHome pa n).zipIdx).map (fun x => (x.1, match cut with | some o => some o | none => s1.poisonOf (pa + x.2))))

/-- An engine at a router's quadrant, given as 4 × site + quadrant (R10, R66), reads `n` bytes: the bytes, or the failing subcode and
VA. -/
def State.engRead (s : State) (core reader asid : Nat) (unit : Bool) (va n : Nat) : State × List PByte × Option (Nat × Nat) :=
  (lineRuns (va % 2 ^ 64) n).foldl (fun acc r =>
    match acc with
    | (_, _, some _) => acc
    | (s, bs, none) =>
      let s := s.engWalk core asid r.1
      match s.engPage core asid unit false r.1 with
      | .error k => (s, bs, some (k, r.1))
      | .ok e =>
        let (s1, x) := s.engReadRun reader (e.pa r.1) r.2 (e.mt == 1)
        (s1, bs ++ x, none)) (s, [], none)

/-- The positions and ORIGINs of poisoned bytes. -/
def poisonMap (bs : List PByte) : Sparse Nat := (bs.zipIdx).filterMap (fun x => x.1.2.map (fun o => (x.2, o)))

/-- Bytes of an agent at a site are written at a physical address, with poison (R404, R432). -/
def State.engWriteRun (s : State) (site pa : Nat) (unc : Bool) (bs : List Byte) (po : Sparse Nat) : State :=
  if (s.unreachable site pa).isSome || s.refusedEng pa then s
  else po.foldl (fun s x => s.poisonHome (pa + x.1) 1 x.2) ((s.writeHome pa bs unc site).endReleases (0, pa) bs.length)

/-- The poison of a run of a write, by position in it. -/
def poisonRun (po : Sparse Nat) (a x n : Nat) : Sparse Nat :=
  po.filterMap (fun y => if x ≤ a + y.1 ∧ a + y.1 < x + n then some (a + y.1 - x, y.2) else none)
/-- The same in the core cycle's order of precedence (R97). -/
def State.engPlace (s : State) (rank site pa : Nat) (unc : Bool) (bs : List Byte) (po : Sparse Nat) : State :=
  s.placeWrite rank 0 pa bs (fun s x l => s.engWriteRun site x unc l (poisonRun po pa x l.length))
/-- The precedence of an engine's writes (Table 5.3): a copy engine, or within a site the attention decode engine before the
near-memory units. -/
def engRank (core engine : Nat) : Nat :=
  if engine < 2 then precedence 2 (core * 2 + engine) else precedence 1 (core / 4 * 8 + (engine - 2))

/-- A near-memory unit writes bytes at once: the failing subcode and VA if there is one. -/
def State.engWrite (s : State) (core rank asid : Nat) (unit : Bool) (va : Nat) (bs : List PByte) : State × Option (Nat × Nat) :=
  (lineRuns (va % 2 ^ 64) bs.length).foldl (fun acc r =>
    match acc with
    | (_, some _) => acc
    | (s, none) =>
      let s := s.engWalk core asid r.1
      match s.engPage core asid unit true r.1 with
      | .error k => (s, some (k, r.1))
      | .ok e =>
        let x := (bs.drop (r.1 - va % 2 ^ 64)).take r.2
        (s.engPlace rank (core / 4) (e.pa r.1) (e.mt == 1) (x.map (·.1)) (poisonMap x), none)) (s, none)

/-- The pieces that write bytes to global memory, up to a run that may not be written (R269, R428). -/
def State.globalPieces (s : State) (core asid va : Nat) (bs : List PByte) : State × List Piece × Option (Nat × Nat) :=
  (lineRuns (va % 2 ^ 64) bs.length).foldl (fun acc r =>
    match acc with
    | (_, _, some _) => acc
    | (s, ps, none) =>
      let s := s.engWalk core asid r.1
      match s.engPage core asid false true r.1 with
      | .error k => (s, ps, some (k, r.1))
      | .ok e =>
        let x := (bs.drop (r.1 - va % 2 ^ 64)).take r.2
        (s, ps ++ [⟨.dram (e.pa r.1) (e.mt == 1), x.map (·.1), poisonMap x, x.length, 0⟩], none)) (s, [], none)

/-- The pieces that write bytes to a scratchpad. -/
def scrPieces (b : Block) (a : Nat) (bs : List PByte) : List Piece :=
  (lineRuns a bs.length).map (fun r =>
    let x := (bs.drop (r.1 - a)).take r.2
    ⟨.scr [b.scrCopy r.1], x.map (·.1), poisonMap x, x.length, r.1⟩)

/-- An engine reads scratchpad bytes of the pushing block's quilt. -/
def State.engScr (s : State) (b : Block) (a n : Nat) : List PByte :=
  let c := b.scrCopy a
  match s.block? (bkOf c.1 c.2.1) with
  | some d =>
    let o := d.spbase + c.2.2
    ((s.scrBytes c.1 o n).zipIdx).map (fun x => (x.1, Sparse.get? (s.core c.1).scrPoison ((o + x.2) / 16)))
  | none => List.replicate n (0, none)

/-- The landings of a number of bytes without a write of their own. -/
def landOnly : Nat → Nat → List Piece
  | 0, _ => []
  | fuel + 1, n => if n = 0 then [] else ⟨.scr [], [], [], min n 128, 0⟩ :: landOnly fuel (n - min n 128)

/-! ### Running commands -/

/-- Every running command of the package. -/
def State.runnings (s : State) : List Running := s.sites.flatMap (fun x => x.2.running)
/-- A running command. -/
def State.running? (s : State) (id : Nat) : Option Running := s.runnings.find? (fun r => r.id == id)
/-- Replaces a running command. -/
def State.setRunning (s : State) (r : Running) : State :=
  s.modSite (r.core / 4) (fun x => { x with running := x.running.map (fun y => if y.id = r.id then r else y) })
/-- Removes a running command. -/
def State.endRunning (s : State) (r : Running) : State :=
  s.modSite (r.core / 4) (fun x => { x with running := x.running.filter (fun y => y.id != r.id) })

/-- The core cycles that the hops of a site's transfers to the farthest of some places add (R14). -/
def State.hopsTo (s : State) (site : Nat) (ps : List Place) : Nat :=
  (ps.filterMap Place.pa?).foldl (fun n pa => max n (hopCycles (s.hemPath site (s.hemGoal pa)))) 0

/-- Starts a command: its pieces are ready to be written and landed, those for another site after the hops to it (R14). -/
def State.startCmd (s : State) (core engine : Nat) (c : Cmd) (ps : List Piece) (w : FlagWord) (saw : Bool)
    (bad : Option (Nat × Nat × Nat)) : State :=
  let hops := s.hopsTo (core / 4) (ps.map (·.place) ++ c.reads.filterMap (fun va => match s.engPage core c.asid false false va with
    | .ok e => some (.dram (e.pa va) false)
    | .error _ => none))
  let r : Running :=
    { id := s.nextId, core := core, engine := engine, cmd := c, pieces := ps, flags := w, sawPoison := saw, failed := bad
      started := s.clk, due := max c.due (s.now (tkCore c.tk) + 1 + hops) }
  ((s.modSite (core / 4) (fun x => { x with running := x.running ++ [r] })).bumpId).bumpFresh

/-- Whether a running command is a near-memory call, whose writes are made as it starts. -/
def Running.near (r : Running) : Bool := decide (2 ≤ r.engine ∧ r.engine ≤ 5)
/-- A running command is abandoned: it leaves its engine (R429, R435 to R438). The flags of a near-memory call's writes are raised
(R79). -/
def State.abandonRunning (s : State) (r : Running) (sub byte where_ : Nat) : State :=
  ((if r.near then s.landFlags r.cmd.tk r.cmd.home r.flags else s).endRunning r).abandon r.cmd sub byte where_

/-- A near-memory unit is fenced: the call that runs on it is abandoned (R437). -/
def State.fenceUnit (s : State) (site u : Nat) : State :=
  let s1 := s.modSite site (fun x =>
    { x with units := Sparse.modify x.units u SiteEngine.reset (fun e => { e with fenced := true }) })
  ((s1.site site).running.filter (fun r => r.engine == 2 + u)).foldl (fun s r => s.abandonRunning r 7 0 0) s1
/-- A call of a near-memory unit was abandoned: the second in a row fences the unit (R437). -/
def State.unitAbandoned (s : State) (site u : Nat) : State :=
  let n := (Sparse.getD (s.site site).units u SiteEngine.reset).abandoned + 1
  let s1 := s.modSite site (fun x =>
    { x with units := Sparse.modify x.units u SiteEngine.reset (fun e => { e with abandoned := n }) })
  if n ≥ 2 then s1.fenceUnit site u else s1
/-- A running command fails: it is abandoned, and a near-memory call counts for its unit (R437). -/
def State.failRunning (s : State) (r : Running) (sub byte where_ : Nat) : State :=
  let s1 := s.abandonRunning r sub byte where_
  if r.near then s1.unitAbandoned (r.core / 4) (r.engine - 2) else s1

/-- Whether a piece must stay behind a transfer of its site to the same site, sent over the Hem before the command started (R14). -/
def State.pieceWaits (s : State) (r : Running) (p : Piece) : Bool :=
  match p.place.pa? with
  | some pa => s.reqs.any (fun e => tkCore e.tk / 4 == r.core / 4 && e.stage != .done && s.leavesSite e &&
      (match e.hem, e.place.pa? with | some k, some q => decide (k < r.started) && s.hemGoal q == s.hemGoal pa | _, _ => false))
  | none => false

/-- Writes a piece (R269); none where the peer's block has ended (R467). -/
def State.writePiece (s : State) (r : Running) (p : Piece) : Option State :=
  match p.place with
  | .dram pa unc => some (s.engPlace (engRank r.core r.engine) (r.core / 4) pa unc p.bytes p.poison)
  | .scr (c :: _) =>
    match s.copyBlock r.cmd.tk c with
    | none => none
    | some d =>
      let o := d.spbase + c.2.2
      some (s.placeWrite (engRank r.core r.engine) (1 + c.1) o p.bytes (fun s x l =>
        ((s.setScr c.1 x l).endReleases ((scrSpan c).1, c.2.2 + x - o) l.length).modCore c.1 (fun k =>
          { k with scrPoison := (poisonRun p.poison o x l.length).foldl (fun m y => Sparse.set m ((x + y.1) / 16) y.2) k.scrPoison })))
  | _ => some s

/-- ENGINE_LANDING (R199, R200, R269, R430, R432, R467): the next piece is written, the command's flags are raised no later
than the landing, and the bytes land; the last landing of a command that read poison finds ERR set. -/
def State.engineLand (s : State) (id : Nat) : State :=
  match s.running? id with
  | none => s
  | some r =>
    match r.pieces with
    | [] => s
    | p :: rest =>
      if s.pieceWaits r p then s
      else match s.writePiece r p with
      | none => ((s.countOrphan r.cmd.tk).failRunning r 5 24 p.addr)
      | some s1 =>
        let s2 := (s1.landFlags r.cmd.tk r.cmd.home r.flags).setRunning { r with pieces := rest, flags := 0 }
        match s2.barAt r.cmd with
        | none => (s2.countOrphan r.cmd.tk).failRunning r 5 2 r.cmd.bar
        | some (core, o) =>
          let x := s2.obj core o
          let y := if r.sawPoison ∧ rest = [] ∧ r.failed = none then x.put 40 1 1 else x
          s2.setObj core o (y.landed p.land)
/-- ENGINE_LANDING (R199). -/
def execEngineLanding (id : Nat) (s : State) : Out := .next (s.engineLand id)

/-- ENGINE_COMMAND_COMPLETE (R263, R264, R428, R432): with every byte landed the command completes and its successors' counts
fall, or the abandonment that stopped it is reported. -/
def State.engineDone (s : State) (id : Nat) : State :=
  match s.running? id with
  | none => s
  | some r =>
    if r.pieces ≠ [] then s
    else
      let s1 := s.landFlags r.cmd.tk r.cmd.home r.flags
      match r.failed with
      | some (sub, byte, w) => s1.failRunning r sub byte w
      | none =>
        let s2 := s1.endRunning r
        let s3 := match r.cmd.succ with | some m => s2.signalNodes (tkBk r.cmd.tk) m | none => s2
        let s4 := if r.near then
            s3.modSite (r.core / 4) (fun x =>
              { x with units := Sparse.modify x.units (r.engine - 2) SiteEngine.reset (fun u => { u with abandoned := 0 }) })
          else s3
        if r.sawPoison ∧ r.cmd.ere then s4.report r.cmd.tk (cmdInfo 0x10 r.cmd 8 0 0) else s4
/-- ENGINE_COMMAND_COMPLETE (R263). -/
def execEngineCommandComplete (id : Nat) (s : State) : Out := .next (s.engineDone id)

/-! ### Site engines take from four cores (R260, R437) -/

/-- A near-memory unit or attention engine of a site. -/
def Site.unit (x : Site) (u : Nat) : SiteEngine := Sparse.getD x.units u SiteEngine.reset
/-- The unit that runs the calls of a vault's queue (R437). -/
def Site.unitFor (x : Site) (v : Nat) : Option Nat :=
  if !(x.unit v).fenced then some v
  else if !(x.unit (v ^^^ 1)).fenced then some (v ^^^ 1)
  else (List.range 4).find? (fun u => !(x.unit u).fenced)
/-- The command that a site engine takes next: the first core in rotation with one, its oldest first. -/
def State.siteHead (s : State) (site u : Nat) (qns : List Nat) : Option (Nat × Cmd) :=
  (List.range 4).findSome? (fun i =>
    let core := site * 4 + ((s.site site).unit u |>.next) % 4
    let core := site * 4 + (core - site * 4 + i) % 4
    let cs := qns.filterMap (s.headCmd core)
    (cs.foldl (fun acc c => match acc with | some (d : Cmd) => if c.id < d.id then some c else some d | none => some c) none).map
      (fun c => (core, c)))
/-- After taking from core c the engine looks first at core c + 1. -/
def State.rotate (s : State) (site u core : Nat) : State :=
  s.modSite site (fun x =>
    { x with units := Sparse.modify x.units u SiteEngine.reset (fun e => { e with next := (core + 1) % 4 }) })

end Sys2Proof.Machine
end

