-- ==== Sys2Proof/Machine/Copy.lean ====
section
/-!
DEFINITION. The copy engines (R265 to R269): storage formats, conversion value by value (R86, R87, R268), layouts, and the
checks of a copy command's body (Table 24.7).
-/
namespace Sys2Proof.Machine

/-! ### Storage formats (Table 12.4) -/

/-- A plain binary8 code. -/
def isPlain8 (f : Nat) : Bool := decide (f ≤ 0x1B) && f / 4 % 8 != 7
/-- A scaled binary8 code. -/
def isScaled8 (f : Nat) : Bool := decide (0x20 ≤ f) && isPlain8 (f - 0x20)
/-- A code that Table 12.4 lists. -/
def isListed (f : Nat) : Bool := isPlain8 f || isScaled8 f || decide (0x40 ≤ f ∧ f ≤ 0x43)
/-- Any binary8 code. -/
def is8 (f : Nat) : Bool := isPlain8 f || isScaled8 f

/-! ### Conversion (R87, R268) -/

/-- Consecutive groups of `k` members of a list. -/
def groupsOf {α : Type} (k : Nat) : Nat → List α → List (List α)
  | 0, _ => []
  | fuel + 1, l => if l.isEmpty then [] else l.take k :: groupsOf k fuel (l.drop k)

/-- Whether m × 2^e is at most m' × 2^e'. -/
def magLe (m : Nat) (e : Int) (m' : Nat) (e' : Int) : Bool :=
  decide (scaleTo m e (min e e') ≤ scaleTo m' e' (min e e'))
/-- The largest finite magnitude among values (R87). -/
def maxMag (vs : List FV) : Option (Nat × Int) :=
  vs.foldl (fun acc v =>
    match v, acc with
    | .fin _ m e, some (m', e') => if magLe m' e' m e then some (m, e) else acc
    | .fin _ m e, none => some (m, e)
    | _, _ => acc) none
/-- The exponent k of the scale of a block encoded into binary8 format `c` (R87). -/
def scaleExp (c : Nat) (vs : List FV) : Int :=
  match maxMag vs with
  | none => 0
  | some (m, e) =>
    let (t, q) := magVal (b8Fmt c) (b8Fmt c).maxCode
    let k := expOf m e - expOf t q
    max (-63) (min 62 (if magLe m e t (q + k) then k else k + 1))
/-- A value divided by 2^k. -/
def FV.divPow (v : FV) (k : Int) : FV := match v with | .fin n m e => .fin n m (e - k) | x => x
/-- A block encoded with a scale (R87): codes, the scale code and flags. -/
def encodeScaled (c : Nat) (vs : List FV) : List Nat × Nat × FlagWord :=
  let k := scaleExp c vs
  let rs := vs.map (fun v => convB8 c .rn (v.divPow k))
  (rs.map (·.code), (0x40 + k).toNat, rs.foldl (fun w r => w ||| r.flags) 0)

/-- The little-endian value of an element's bytes. -/
def elemCode (e : List PByte) : Nat := leNat (e.map (·.1))
/-- An element decoded exactly, its block's scale applied (R82, R268). -/
def decodeElem (sf : Nat) (sc : Option PByte) (e : List PByte) : FV × FlagWord :=
  if is8 sf then
    let v := b8Value (sf % 32) (elemCode e)
    match sc with
    | some x => mulFV v (b8Value b8Scale x.1.toNat)
    | none => (v, 0)
  else (storeVal sf (elemCode e), 0)

/-- The flags of decoded elements. -/
def flagsAmong (l : List (FV × FlagWord)) : FlagWord := l.foldl (fun w x => w ||| x.2) 0

/-- Whether codes are copied unchanged (R268, step 1). -/
def sameCodes (sf df : Nat) (hold : Bool) : Bool :=
  (sf == df && (sf == 0x40 || sf == 0x43)) ||
    (is8 sf && is8 df && sf % 32 == df % 32 && (hold || !isScaled8 sf))

/-- Up to 128 elements converted (R268, R432): the bytes, the scale where the destination holds one, and flags. Where a
scale takes part, poison covers the whole block. -/
def convBlock (sf df : Nat) (hold : Bool) (es : List (List PByte)) (sc : Option PByte) :
    List PByte × List PByte × FlagWord :=
  let whole := isScaled8 sf || hold
  let bp := poisonAmong (es.flatten ++ sc.toList)
  let po (e : List PByte) : Option Nat := if whole then bp else poisonAmong e
  if sameCodes sf df hold then
    (es.flatMap (fun e => e.map (fun x => (x.1, po e))),
      if hold then [(match sc with | some x => x.1 | none => 0x40#8, bp)] else [], 0)
  else
    let ds := es.map (decodeElem sf sc)
    let pre := flagsAmong ds
    if hold then
      let (cs, k, w) := encodeScaled (df % 32) (ds.map (·.1))
      (cs.map (fun c => (BitVec.ofNat 8 c, bp)), [(BitVec.ofNat 8 k, bp)], pre ||| w)
    else
      let rs := ds.map (fun d => storeRes df d.1)
      ((rs.zip es).flatMap (fun x => (leBytes (storeSize df) x.1.code).map (fun y => (y, po x.2))), [],
        rs.foldl (fun w r => w ||| r.flags) pre)

/-- A row converted: its bytes, its scales and flags. -/
def convRow (sf df : Nat) (hold : Bool) (data scales : List PByte) : List PByte × List PByte × FlagWord :=
  let es := groupsOf (storeSize sf) data.length data
  ((groupsOf 128 es.length es).zipIdx).foldl (fun acc g =>
    let (x, y, w) := convBlock sf df hold g.1 (if isScaled8 sf then scales[g.2]? else none)
    (acc.1 ++ x, acc.2.1 ++ y, acc.2.2 ||| w)) ([], [], 0)

/-! ### The body (Table 12.5) and its checks -/

/-- The fields of a copy command's body. -/
structure CopyBody where
  gaddr : Nat
  scaddr : Nat
  spofs : Nat
  gstr : Nat
  sstr : Nat
  scstr : Nat
  rows : Nat
  elems : Nat
  sfmt : Nat
  dfmt : Nat
  lay : Nat
  deriving DecidableEq, Repr

/-- The body of a copy command. -/
def Cmd.copy (c : Cmd) : CopyBody :=
  { gaddr := c.num 8 8, scaddr := c.num 16 8, spofs := c.num 24 4, gstr := c.num 28 4, sstr := c.num 32 4
    scstr := c.num 36 4, rows := c.num 40 4, elems := c.num 44 4, sfmt := c.num 48 1, dfmt := c.num 49 1, lay := c.num 50 1 }

/-- Whether the destination holds a scale for each block of 128 values. -/
def CopyBody.hold (x : CopyBody) : Bool := isScaled8 x.dfmt || (x.lay != 0 && isPlain8 x.dfmt)
/-- A format that canonical layouts take. -/
def layFmt (f : Nat) : Bool := isPlain8 f || f == 0x41 || f == 0x42

/-- The limits of R266 and R267 that a body may break: the field's first byte and whether it breaks it. Raw data (0x43) on one side
alone, or into a canonical layout, is taken to break them (DEDUCED, log 48). -/
def copyLimits (c : Cmd) (x : CopyBody) : List (Nat × Bool) :=
  let op := c.op
  let scaled := op != 3 && (isScaled8 x.sfmt || isScaled8 x.dfmt)
  let raws := (x.sfmt == 0x43) != (x.dfmt == 0x43)
  let canon := op == 1 && (x.lay == 1 || x.lay == 2)
  [(12, op == 3 && c.nonzero 12 4), (16, !scaled && x.scaddr != 0),
   (32, canon && x.sstr != 0), (36, !scaled && x.scstr != 0),
   (40, x.rows == 0 || decide (x.rows > 65536) || (canon && x.lay == 1 && decide (x.rows > 128)) ||
      (canon && x.lay == 2 && x.rows != 512)),
   (44, x.elems == 0 || decide (x.elems > 2 ^ 20) || ((scaled || (canon && x.lay == 1)) && x.elems % 128 != 0) ||
      (canon && x.lay == 2 && x.elems != 128)),
   (48, !isListed x.sfmt || (op == 3 && x.sfmt != 0x43) || (op == 2 && isScaled8 x.sfmt) || (canon && x.sfmt == 0x43)),
   (49, !isListed x.dfmt || (op == 3 && x.dfmt != 0x43) || (op == 2 && raws) ||
      (op == 1 && x.lay == 0 && (isScaled8 x.dfmt || raws)) || (canon && !layFmt x.dfmt)),
   (50, decide (x.lay > 2) || (op != 1 && x.lay != 0))] ++
    (List.range 12).map (fun i => (51 + i, c.nonzero (51 + i) 1))

/-- The size of one block of a canonical layout. -/
def CopyBody.layBlock (x : CopyBody) : Nat :=
  if x.lay = 1 then (if storeSize x.dfmt = 1 then 128 * (x.rows + 1) else 256 * x.rows)
  else if storeSize x.dfmt = 1 then 66048 else 131072

/-- The scratchpad ranges that a body names (check 7): field byte, address, bytes. -/
def CopyBody.ranges (x : CopyBody) (c : Cmd) : List (Nat × Nat × Nat) :=
  let rowsAt (byte a st n : Nat) : List (Nat × Nat × Nat) := (List.range x.rows).map (fun r => (byte, a + r * st, n))
  match c.op with
  | 3 => rowsAt 8 (c.num 8 4) x.gstr x.elems ++ rowsAt 24 x.spofs x.sstr x.elems
  | 2 => rowsAt 24 x.spofs x.sstr (x.elems * storeSize x.sfmt)
  | _ =>
    if x.lay = 0 then rowsAt 24 x.spofs x.sstr (x.elems * storeSize x.dfmt)
    else [(24, x.spofs, if x.lay = 1 then x.elems / 128 * x.layBlock else x.layBlock)]

/-- Checks 5 and 7 of Table 24.7 for a copy command. -/
def copyCheck (b : Block) (c : Cmd) : Option (Nat × Nat × Nat) :=
  let x := c.copy
  match (copyLimits c x).find? (·.2) with
  | some (byte, _) => some (2, byte, 0)
  | none => rangeCheck b (x.ranges c)

/-! ### What a copy reads and writes (R267) -/

/-- The state of a copy while its rows are made: pieces so far, rows of a canonical layout, flags, and what stopped it. -/
structure CopyRun where
  s : State
  pieces : List Piece
  rows : List (List PByte × List PByte)
  flags : FlagWord
  bad : Option (Nat × Nat)

/-- One row of a CP.LOAD. -/
def loadRow (core : Nat) (b : Block) (c : Cmd) (x : CopyBody) (z : CopyRun) (r : Nat) : CopyRun :=
  if z.bad.isSome then z
  else
    let (s1, data, e1) := z.s.engRead core core c.asid false (x.gaddr + r * x.gstr) (x.elems * storeSize x.sfmt)
    let (s2, scales, e2) := if isScaled8 x.sfmt ∧ e1 = none then
        s1.engRead core core c.asid false (x.scaddr + r * x.scstr) (x.elems / 128) else (s1, [], e1)
    match e2 with
    | some e => { z with s := s2, bad := some e }
    | none =>
      let (d, sc, w) := convRow x.sfmt x.dfmt x.hold data scales
      if x.lay = 0 then { z with s := s2, pieces := z.pieces ++ scrPieces b (x.spofs + r * x.sstr) d, flags := z.flags ||| w }
      else { z with s := s2, rows := z.rows ++ [(d, sc)], flags := z.flags ||| w }

/-- Block j of a canonical A operand (Table 11.2) from its rows. -/
def layABlock (x : CopyBody) (rows : List (List PByte × List PByte)) (j : Nat) : List PByte :=
  let w := storeSize x.dfmt
  let codes := rows.flatMap (fun r => (r.1.drop (128 * w * j)).take (128 * w))
  if w = 1 then codes ++ rows.map (fun r => r.2.getD j (0, none)) ++ List.replicate (128 - x.rows) (0, none) else codes
/-- A canonical B tile (Table 11.3) from its 512 rows: row n is column n. -/
def layBTile (x : CopyBody) (rows : List (List PByte × List PByte)) : List PByte :=
  let w := storeSize x.dfmt
  let codes := (List.range 128).flatMap (fun k => rows.flatMap (fun r => (r.1.drop (w * k)).take w))
  if w = 1 then codes ++ rows.map (fun r => r.2.getD 0 (0, none)) else codes

/-- One row of a CP.STORE: its elements, then its scales. -/
def storeRow (core : Nat) (b : Block) (c : Cmd) (x : CopyBody) (z : CopyRun) (r : Nat) : CopyRun :=
  if z.bad.isSome then z
  else
    let data := z.s.engScr b (x.spofs + r * x.sstr) (x.elems * storeSize x.sfmt)
    let (d, sc, w) := convRow x.sfmt x.dfmt x.hold data []
    let (s1, p1, e1) := z.s.globalPieces core c.asid (x.gaddr + r * x.gstr) d
    let (s2, p2, e2) := if isScaled8 x.dfmt ∧ e1 = none then s1.globalPieces core c.asid (x.scaddr + r * x.scstr) sc
      else (s1, [], e1)
    { z with s := s2, pieces := z.pieces ++ p1 ++ p2, flags := z.flags ||| w, bad := e2 }

/-- One row of a CP.MOVE. -/
def moveRow (b : Block) (c : Cmd) (x : CopyBody) (z : CopyRun) (r : Nat) : CopyRun :=
  { z with pieces := z.pieces ++ scrPieces b (x.spofs + r * x.sstr) (z.s.engScr b (c.num 8 4 + r * x.gstr) x.elems) }

/-- Every row of a copy, and the pieces of a canonical layout. -/
def State.copyRun (s : State) (core : Nat) (b : Block) (c : Cmd) : CopyRun :=
  let x := c.copy
  let z0 : CopyRun := ⟨s, [], [], 0, none⟩
  match c.op with
  | 3 => (List.range x.rows).foldl (moveRow b c x) z0
  | 2 => (List.range x.rows).foldl (storeRow core b c x) z0
  | _ =>
    let z := (List.range x.rows).foldl (loadRow core b c x) z0
    if z.bad.isSome then z
    else match x.lay with
    | 1 => { z with pieces := (List.range (x.elems / 128)).flatMap (fun j =>
        scrPieces b (x.spofs + j * x.layBlock) (layABlock x z.rows j)) }
    | 2 => { z with pieces := scrPieces b x.spofs (layBTile x z.rows) }
    | _ => z

/-- A copy engine starts a command (R267 to R269). -/
def State.startCopy (core engine : Nat) (s : State) (c : Cmd) (b : Block) : State :=
  let z := s.copyRun core b c
  z.s.startCmd core engine c z.pieces z.flags (z.pieces.any (fun p => p.poison != [])) (z.bad.map (fun e => (e.1, 0, e.2)))

/-- The queues from which a copy engine takes, in the order it looks at them (R260, R435). -/
def Core.copyQueues (x : Core) (e : Nat) : List Nat :=
  if x.fenced || x.copyFenced.getLsbD e then []
  else if x.copyFenced.getLsbD (1 - e) then (if x.copyTurn = 1 then [1, 0] else [0, 1])
  else [e]

/-- A copy engine takes up the next command, and starts it if its opcode is `op`. -/
def State.copyTake (s : State) (core e op : Nat) : State :=
  match ((s.core core).copyQueues e).findSome? (s.headCmd core) with
  | none => s
  | some c =>
    let s1 := s.takeUp core c [op] copyCheck (State.startCopy core e)
    if ((s1.core core).queueOf c.qn).any (fun d => d.id == c.id) then s1
    else s1.modCore core (fun x => { x with copyTurn := 1 - c.qn })

/-- CP_LOAD (R267). -/
def execCpLoad (core engine : Nat) (s : State) : Out := .next (s.copyTake core (engine % 2) 1)
/-- CP_STORE (R267). -/
def execCpStore (core engine : Nat) (s : State) : Out := .next (s.copyTake core (engine % 2) 2)
/-- CP_MOVE (R267). -/
def execCpMove (core engine : Nat) (s : State) : Out := .next (s.copyTake core (engine % 2) 3)

end Sys2Proof.Machine
end

