-- ==== Sys2Proof/Machine/NearMem.lean ====
section
/-!
DEFINITION. The near-memory units (R270 to R272, R428, R432): the vendor routines of Table 12.6 step by step in their order, and
the call of a customer routine, whose accesses the outside brings.
-/
namespace Sys2Proof.Machine

/-- Argument i of NMU.CALL (R270). -/
def Cmd.arg (c : Cmd) (i : Nat) : Nat := c.num (12 + 8 * i) 8
/-- The entry point. -/
def Cmd.entry (c : Cmd) : Nat := c.num 8 1

/-- Checks 5 and 6 of Table 24.7 for NMU.CALL. -/
def State.nmuCheck (s : State) (_ : Block) (c : Cmd) : Option (Nat × Nat × Nat) :=
  if c.entry > 31 then some (2, 8, 0)
  else match ([9, 10, 11, 60, 61, 62]).find? (fun i => c.nonzero i 1) with
  | some i => some (2, i, 0)
  | none =>
    if c.entry > 5 && !s.routines.contains c.entry then some (6, 8, 0)
    else if c.entry = 5 && !isScaled8 (c.num 36 1) then some (2, 36, 0)
    else if c.entry = 5 && !isScaled8 (c.num 37 1) then some (2, 37, 0)
    else none

/-- A call while it runs: the state, its flags, whether it read poison, and what stopped it. -/
structure CallRun where
  s : State
  done : Nat                                -- steps made
  acc : Nat × Option Nat                    -- the running sum of sum-reduce with its poison
  flags : FlagWord
  saw : Bool
  bad : Option (Nat × Nat)

/-- What a call needs besides its state: core, unit, ASID and the call itself. -/
structure CallEnv where
  core : Nat
  unit : Nat
  asid : Nat
  cmd : Cmd

/-- Reads `n` bytes for a call. -/
def CallRun.read (z : CallRun) (v : CallEnv) (va n : Nat) : CallRun × List PByte :=
  if z.bad.isSome then (z, [])
  else
    let (s1, bs, e) := z.s.engRead v.core (4 * (v.core / 4) + v.unit) v.asid true va n
    ({ z with s := s1, bad := e, saw := z.saw || (poisonAmong bs).isSome }, bs)
/-- Writes bytes for a call, with the poison of the words that its computation read. -/
def CallRun.write (z : CallRun) (v : CallEnv) (va : Nat) (bs : List Byte) (po : Option Nat) : CallRun :=
  if z.bad.isSome then z
  else
    let (s1, e) := z.s.engWrite v.core (engRank v.core (2 + v.unit)) v.asid true va (bs.map (fun x => (x, po)))
    { z with s := s1, bad := e }
/-- Reads a word. -/
def CallRun.word (z : CallRun) (v : CallEnv) (va : Nat) : CallRun × Nat × Option Nat :=
  let (z1, bs) := z.read v va 4
  (z1, elemCode bs, poisonAmong bs)
/-- One step of a call is made. -/
def CallRun.step (z : CallRun) : CallRun := if z.bad.isSome then z else { z with done := z.done + 1 }
/-- The first of two poisons. -/
def orPoison (a b : Option Nat) : Option Nat := match a with | some x => some x | none => b

/-- fill (Table 12.6, entry 0). -/
def nmuFillStep (v : CallEnv) (z : CallRun) (i : Nat) : CallRun :=
  (z.write v (v.cmd.arg 0 + 4 * i) (leBytes 4 (v.cmd.num 28 4)) none).step
/-- axpy (entry 1). -/
def nmuAxpyStep (v : CallEnv) (z : CallRun) (i : Nat) : CallRun :=
  let (z1, x, p1) := z.word v (v.cmd.arg 1 + 4 * i)
  let (z2, y, p2) := z1.word v (v.cmd.arg 0 + 4 * i)
  let t := arMul fp32 .rn (ofIeee fp32 (v.cmd.num 36 4)) (ofIeee fp32 x)
  let r := arAdd fp32 .rn (ofIeee fp32 y) (ofIeee fp32 t.code)
  ({ z2 with flags := if z2.bad.isSome then z2.flags else z2.flags ||| t.flags ||| r.flags }.write v (v.cmd.arg 0 + 4 * i)
    (leBytes 4 r.code) (orPoison p1 p2)).step
/-- One addition of sum-reduce (entry 2). -/
def nmuSumStep (v : CallEnv) (z : CallRun) (i : Nat) : CallRun :=
  let (z1, x, p) := z.word v (v.cmd.arg 0 + 4 * i)
  if z1.bad.isSome then z1
  else
    let r := arAdd fp32 .rn (ofIeee fp32 z1.acc.1) (ofIeee fp32 x)
    { z1 with acc := (r.code, orPoison z1.acc.2 p), flags := z1.flags ||| r.flags }
/-- scatter-add (entry 3). -/
def nmuScatterStep (v : CallEnv) (z : CallRun) (i : Nat) : CallRun :=
  let (z1, ix, p1) := z.word v (v.cmd.arg 1 + 4 * i)
  let (z2, val, p2) := z1.word v (v.cmd.arg 2 + 4 * i)
  let at_ := v.cmd.arg 0 + 4 * ix
  let (z3, y, p3) := z2.word v at_
  let r := arAdd fp32 .rn (ofIeee fp32 y) (ofIeee fp32 val)
  ({ z3 with flags := if z3.bad.isSome then z3.flags else z3.flags ||| r.flags }.write v at_ (leBytes 4 r.code)
    (orPoison p1 (orPoison p2 p3))).step
/-- gather (entry 4). -/
def nmuGatherStep (v : CallEnv) (z : CallRun) (i : Nat) : CallRun :=
  let (z1, ix, p1) := z.word v (v.cmd.arg 2 + 4 * i)
  let (z2, x, p2) := z1.word v (v.cmd.arg 1 + 4 * ix)
  (z2.write v (v.cmd.arg 0 + 4 * i) (leBytes 4 x) (orPoison p1 p2)).step
/-- re-encode (entry 5): a block is decoded exactly and encoded under R87. -/
def nmuReEncodeStep (v : CallEnv) (z : CallRun) (i : Nat) : CallRun :=
  let sf := v.cmd.num 36 1
  let df := v.cmd.num 37 1
  let (z1, codes) := z.read v (v.cmd.arg 0 + 128 * i) 128
  let (z2, sc) := z1.read v (v.cmd.arg 4 + i) 1
  let po := poisonAmong (codes ++ sc)
  let ds : List (FV × FlagWord) := codes.map (fun x => decodeElem sf sc.head? [x])
  let (cs, k, w) := encodeScaled (df % 32) (ds.map (·.1))
  let z3 := { z2 with flags := if z2.bad.isSome then z2.flags else z2.flags ||| w ||| flagsAmong ds }
  ((z3.write v (v.cmd.arg 1 + 128 * i) (cs.map (BitVec.ofNat 8)) po).write v (v.cmd.arg 5 + i) (leBytes 1 k) po).step

/-- The steps of a call in ascending order, until one fails. -/
def callLoop (g : CallRun → Nat → CallRun) : Nat → Nat → CallRun → CallRun
  | 0, _, z => z
  | k + 1, i, z => if z.bad.isSome then z else callLoop g k (i + 1) (g z i)

/-- A whole vendor routine, and the bytes that it lands. -/
def runVendor (v : CallEnv) (z : CallRun) : CallRun × Nat :=
  match v.cmd.entry with
  | 0 => let r := callLoop (nmuFillStep v) (v.cmd.arg 1) 0 z; (r, 4 * r.done)
  | 1 => let r := callLoop (nmuAxpyStep v) (v.cmd.arg 2) 0 z; (r, 4 * r.done)
  | 2 =>
    let r := callLoop (nmuSumStep v) (v.cmd.arg 1) 0 z
    let r1 := (r.write v (v.cmd.arg 2) (leBytes 4 r.acc.1) r.acc.2).step
    (r1, 4 * r1.done)
  | 3 => let r := callLoop (nmuScatterStep v) (v.cmd.arg 3) 0 z; (r, 4 * r.done)
  | 4 => let r := callLoop (nmuGatherStep v) (v.cmd.arg 3) 0 z; (r, 4 * r.done)
  | _ => let r := callLoop (nmuReEncodeStep v) (v.cmd.arg 2) 0 z; (r, 129 * r.done)

/-- Starts a vendor routine: its accesses are made in one step, and its bytes then land. -/
def State.startVendor (core unit : Nat) (s : State) (c : Cmd) (_ : Block) : State :=
  let (r, n) := runVendor ⟨core, unit, c.asid, c⟩ ⟨s, 0, (0, none), 0, false, none⟩
  r.s.startCmd core (2 + unit) c (landOnly (n + 1) n) r.flags r.saw (r.bad.map (fun e => (e.1, 0, e.2)))

/-- A near-memory unit that runs no call takes up the next one (R260, R271, R437); it starts it if `want` says that the
event is the call's own. -/
def State.unitTake (s : State) (site unit : Nat) (want : Cmd → Bool) (start : Nat → State → Cmd → Block → State) : State :=
  let x := s.site site
  let qns := ((List.range 4).filter (fun v => x.unitFor v == some unit)).map (· + 2)
  if x.fenced || x.running.any (fun r => r.engine == 2 + unit) then s
  else match s.siteHead site unit qns with
  | none => s
  | some (core, c) =>
    let ops := if want c then [0x10] else []
    let s1 := s.takeUp core c ops s.nmuCheck (start core)
    let s2 := if c.op == 0x10 && (match s.block? (tkBk c.tk) with | some b => (cmdFault b c ops s.nmuCheck).isSome | none => false) then
        s1.unitAbandoned site unit
      else s1
    if ((s2.core core).queueOf c.qn).any (fun d => d.id == c.id) then s2 else s2.rotate site unit core

/-- A vendor routine's event. -/
def State.vendorTake (s : State) (site unit entry : Nat) : State :=
  s.unitTake (site % 16) (unit % 4) (fun c => c.entry == entry) (fun core => State.startVendor core (unit % 4))

/-- NMU_FILL (R272). -/
def execNmuFill (site unit : Nat) (s : State) : Out := .next (s.vendorTake site unit 0)
/-- NMU_AXPY (R272). -/
def execNmuAxpy (site unit : Nat) (s : State) : Out := .next (s.vendorTake site unit 1)
/-- NMU_SUM_REDUCE (R272). -/
def execNmuSumReduce (site unit : Nat) (s : State) : Out := .next (s.vendorTake site unit 2)
/-- NMU_SCATTER_ADD (R272). -/
def execNmuScatterAdd (site unit : Nat) (s : State) : Out := .next (s.vendorTake site unit 3)
/-- NMU_GATHER (R272). -/
def execNmuGather (site unit : Nat) (s : State) : Out := .next (s.vendorTake site unit 4)
/-- NMU_RE_ENCODE (R272). -/
def execNmuReEncode (site unit : Nat) (s : State) : Out := .next (s.vendorTake site unit 5)

/-- A word write of a customer routine (R271, R432): the words that its computation read are read first, and where one is poisoned the
written word is. -/
def customStep (v : CallEnv) (z : CallRun) (x : Nat × Word × List Nat) : CallRun :=
  let (z1, po) := x.2.2.foldl (fun (a : CallRun × Option Nat) va =>
    let (z, _, p) := a.1.word v va
    (z, orPoison a.2 p)) (z, none)
  (z1.write v x.1 (leBytes 4 x.2.1.toNat) po).step
/-- Starts a customer routine (R271, R272): its word writes, each with the words that it was computed from, the bytes it lands and its
flags are what the installed firmware makes of its arguments, and come with the event. -/
def State.startCustom (writes : List (Nat × Word × List Nat)) (landed : Nat) (w : FlagWord) (core unit : Nat) (s : State) (c : Cmd)
    (_ : Block) : State :=
  let v : CallEnv := ⟨core, unit, c.asid, c⟩
  let r := writes.foldl (customStep v) (⟨s, 0, (0, none), 0, false, none⟩ : CallRun)
  r.s.startCmd core (2 + unit) c (if r.bad.isSome then [] else landOnly (landed + 1) landed) w r.saw
    (r.bad.map (fun e => (e.1, 0, e.2)))
/-- NMU_CUSTOM_CALL (R271). -/
def execNmuCustomCall (site unit : Nat) (writes : List (Nat × Word × List Nat)) (landed : Nat) (flags : FlagWord) (s : State) : Out :=
  .next (s.unitTake (site % 16) (unit % 4) (fun c => decide (c.entry > 5))
    (fun core => State.startCustom writes landed flags core (unit % 4)))

end Sys2Proof.Machine
end

