-- ==== Sys2Proof/Machine/Trans.lean ====
section
/-!
DEFINITION. The function group FDIV to FCOSPI (R178): each exact value is taken to several hundred bits, with the part
below cut off and marked inexact, and rounded once. DEDUCED (log 7): no FP32 operand of an irrational case lies so
close to a rounding boundary that the bits kept cannot decide it.
-/
namespace Sys2Proof.Machine

/-- The largest r of at most `bits` bits with r * r ≤ n. -/
def isqrt (n : Nat) : Nat → Nat → Nat
  | 0, r => r
  | k + 1, r =>
    let c := r + 2 ^ k
    isqrt n k (if c * c ≤ n then c else r)

/-- floor(sqrt n). -/
def natSqrt (n : Nat) : Nat := isqrt n (n.log2 / 2 + 1) 0

/-- The exact quotient (m * 2^e) / (d * 2^g) as a mantissa with a sticky bit below it. -/
def quotFin (m : Nat) (e : Int) (d : Nat) (g : Int) : Nat × Int :=
  let k := 64 + ilog2 d
  let n := m <<< k
  sticky (n / d) (e - g - (k : Int)) (n % d != 0)

/-- The exact square root of m * 2^e, as a mantissa with a sticky bit below it. -/
def sqrtFin (m : Nat) (e : Int) : Nat × Int :=
  let (m, e) := if e % 2 = 0 then (m, e) else (2 * m, e - 1)
  let n := m <<< 128
  let r := natSqrt n
  sticky r (e / 2 - 64) (r * r != n)

/-- The exact reciprocal square root of m * 2^e. -/
def rsqrtFin (m : Nat) (e : Int) : Nat × Int :=
  let (m, e) := if e % 2 = 0 then (m, e) else (2 * m, e - 1)
  let k := 64 + ilog2 m
  let n := 2 ^ (2 * k)
  let r := natSqrt (n / m)
  sticky r (-(e / 2) - (k : Int)) (r * r * m != n)

/-- Fractional bits of the fixed-point numbers below. -/
def fxBits : Nat := 440

/-- Terms of each series: enough for 440 bits at every argument used. -/
def fxTerms : List Nat := List.range 150

/-- atanh(z) for 0 ≤ z ≤ 1/3 in fixed point: z + z^3/3 + z^5/5 + … -/
def fxAtanh (z : Nat) : Nat :=
  let z2 := z * z / 2 ^ fxBits
  (fxTerms.foldl (fun (s : Nat × Nat) n => (s.1 + s.2 / (2 * n + 1), s.2 * z2 / 2 ^ fxBits)) (0, z)).1

/-- atan(1/d) in fixed point by its alternating series. -/
def fxAtanInv (d : Nat) : Nat :=
  let z := 2 ^ fxBits / d
  let s := fxTerms.foldl (fun (s : Nat × Nat × Nat) n =>
    let t := s.2.2 / (2 * n + 1)
    (if n % 2 = 0 then (s.1 + t, s.2.1, s.2.2 / (d * d)) else (s.1, s.2.1 + t, s.2.2 / (d * d)))) (0, 0, z)
  s.1 - s.2.1

/-- ln 2 in fixed point: 2 atanh(1/3). -/
def fxLn2 : Nat := 2 * fxAtanh (2 ^ fxBits / 3)

/-- π in fixed point, by Machin's formula. -/
def fxPi : Nat := 16 * fxAtanInv 5 - 4 * fxAtanInv 239

/-- exp(y) for 0 ≤ y < 1 in fixed point. -/
def fxExp (y : Nat) : Nat :=
  (fxTerms.foldl (fun (s : Nat × Nat) n => (s.1 + s.2, s.2 * y / 2 ^ fxBits / (n + 1))) (0, 2 ^ fxBits)).1

/-- sin(y) for 0 ≤ y ≤ 2 in fixed point. -/
def fxSin (y : Nat) : Nat :=
  let y2 := y * y / 2 ^ fxBits
  let s := fxTerms.foldl (fun (s : Nat × Nat × Nat) n =>
    let nx := s.2.2 * y2 / 2 ^ fxBits / ((2 * n + 2) * (2 * n + 3))
    (if n % 2 = 0 then (s.1 + s.2.2, s.2.1, nx) else (s.1, s.2.1 + s.2.2, nx))) (0, 0, y)
  s.1 - s.2.1

/-- A fixed-point number as an inexact value. -/
def fxVal (n : Nat) : Nat × Int := sticky n (-(fxBits : Int)) true

/-- An integer power of two, or 2^i times a fixed-point factor. -/
def exp2Fin (neg : Bool) (m : Nat) (e : Int) : Nat × Int :=
  let top := expOf m e
  if top ≥ 9 then (if neg then sticky 1 (-400) true else sticky 1 400 true)
  else if top < -(400 : Int) then sticky (if neg then 2 ^ 400 - 1 else 2 ^ 400) (-400) true
  else
    -- a = m * 2^e at fxBits fractional bits: |a| < 2^9 and every FP32 value has at most 149 of them
    let s : Int := if e + (fxBits : Int) ≥ 0 then (m <<< (e + (fxBits : Int)).toNat : Nat) else 0
    let a : Int := if neg then -s else s
    let i := a / 2 ^ fxBits
    let fr := (a % 2 ^ fxBits).toNat
    if fr = 0 then (1, i)
    else
      let x := fxExp (fr * fxLn2 / 2 ^ fxBits)
      let r := fxVal x
      (r.1, r.2 + i)

/-- log2 of m * 2^e, as a sign, a mantissa and an exponent; none for exactly 0. -/
def log2Fin (m : Nat) (e : Int) : Option (Bool × Nat × Int) :=
  let k := ilog2 m
  let i : Int := (k : Int) + e
  if m = 2 ^ k then
    if i = 0 then none else some (decide (i < 0), i.natAbs, 0)
  else
    let x := m * 2 ^ fxBits / 2 ^ k          -- in (1, 2)
    let one := 2 ^ fxBits
    let z := (x - one) * one / (x + one)
    let l := 2 * fxAtanh z * one / fxLn2     -- log2 of the fraction
    let v : Int := i * (one : Int) + (l : Int)
    let neg := decide (v < 0)
    let r := fxVal v.natAbs
    some (neg, r.1, r.2)

/-- m * 2^e modulo 2, in units of 2^(min e 0): the unit's exponent below 0 and the value. -/
def mod2Fin (m : Nat) (e : Int) : Nat × Nat :=
  if e ≥ 1 then (0, 0)
  else
    let k := (-e).toNat
    (k, m % 2 ^ (k + 1))

/-- sin(π t) for t = x / 2^k in [0, 1): a sign-free value; none for 0. Exactly 1 at t = 1/2. -/
def sinPiUnit (k x : Nat) : Option (Nat × Int) :=
  if x = 0 then none
  else if 2 * x = 2 ^ k then some (1, 0)
  else
    let y := if 2 * x > 2 ^ k then 2 ^ k - x else x
    some (fxVal (fxSin (y * fxPi / 2 ^ k)))

/-- The functions of one operand (Table 8.2). -/
inductive Fn where
  | sqrt | rcp | rsq | exp2 | log2 | sinpi | cospi
  deriving DecidableEq, Repr

/-- A mantissa and exponent rounded to FP32. -/
def roundF (rm : RM) (neg : Bool) (v : Nat × Int) : Res := roundFin fp32 rm neg v.1 v.2

/-- The NaN of an invalid operation. -/
def invalidF : Res := nanRes fp32 fINV

/-- FDIV (Table 8.2). -/
def arDiv (rm : RM) (a b : FV) : Res :=
  let n := a.sign != b.sign
  let sg := sigFlags [a, b]
  match a, b with
  | .nan _, _ | _, .nan _ => nanRes fp32 sg
  | .zero _, .zero _ | .inf _, .inf _ => invalidF
  | .inf _, _ => ⟨infCode fp32 n, 0⟩
  | _, .inf _ | .zero _, _ => ⟨withSign fp32 n 0, 0⟩
  | _, .zero _ => ⟨infCode fp32 n, 0⟩
  | .fin _ m e, .fin _ d g => roundF rm n (quotFin m e d g)

/-- +0 and the infinities as results without flags. -/
def plainRes (c : Nat) : Res := ⟨c, 0⟩

/-- The one-operand functions (Table 8.2). -/
def arFn (fn : Fn) (rm : RM) (a : FV) : Res :=
  match fn, a with
  | _, .nan _ => nanRes fp32 (sigFlags [a])
  | .sqrt, .zero n => plainRes (withSign fp32 n 0)
  | .sqrt, .inf n => if n then invalidF else plainRes (infCode fp32 false)
  | .sqrt, .fin n m e => if n then invalidF else roundF rm false (sqrtFin m e)
  | .rcp, .zero n => plainRes (infCode fp32 n)
  | .rcp, .inf n => plainRes (withSign fp32 n 0)
  | .rcp, .fin n m e => roundF rm n (quotFin 1 0 m e)
  | .rsq, .zero n => plainRes (infCode fp32 n)
  | .rsq, .inf n => if n then invalidF else plainRes 0
  | .rsq, .fin n m e => if n then invalidF else roundF rm false (rsqrtFin m e)
  | .exp2, .zero _ => plainRes 0x3F800000
  | .exp2, .inf n => if n then plainRes 0 else plainRes (infCode fp32 false)
  | .exp2, .fin n m e => roundF rm false (exp2Fin n m e)
  | .log2, .zero _ => plainRes (infCode fp32 true)
  | .log2, .inf n => if n then invalidF else plainRes (infCode fp32 false)
  | .log2, .fin n m e =>
    if n then invalidF
    else match log2Fin m e with
      | none => plainRes 0
      | some (g, v) => roundF rm g v
  | .sinpi, .zero n => plainRes (withSign fp32 n 0)
  | .cospi, .zero _ => plainRes 0x3F800000
  | .sinpi, .inf _ | .cospi, .inf _ => invalidF
  | .sinpi, .fin n m e =>
    let (k, x) := mod2Fin m e
    let odd := decide (x ≥ 2 ^ k)
    match sinPiUnit k (x % 2 ^ k) with
    | none => plainRes (withSign fp32 n 0)
    | some v => roundF rm (n != odd) v
  | .cospi, .fin _ m e =>
    let (k, x) := mod2Fin m e
    -- cos(π a) = sin(π (a + 1/2)), in units of half the former
    let y := (2 * x + 2 ^ k) % 2 ^ (k + 2)
    let odd := decide (y ≥ 2 ^ (k + 1))
    match sinPiUnit (k + 1) (y % 2 ^ (k + 1)) with
    | none => plainRes 0
    | some v => roundF rm odd v

end Sys2Proof.Machine
end

