-- ==== Sys2Proof/Machine/Attn.lean ====
section
/-!
DEFINITION. The attention decode engine (R273, R274, R424, R432, R438).
-/
namespace Sys2Proof.Machine

/-- The body of ATT.DECODE (Table 12.7). -/
structure AttBody where
  kbase : Nat
  vbase : Nat
  len : Nat
  d : Nat
  kvf : Nat
  heads : Nat
  sscale : Nat
  qofs : Nat
  oofs : Nat
  hstr : Nat
  kstr : Nat
  mlofs : Nat
  deriving DecidableEq, Repr

/-- The body of a command. -/
def Cmd.att (c : Cmd) : AttBody :=
  { kbase := c.num 8 8, vbase := c.num 16 8, len := c.num 24 4, d := 64 * 2 ^ c.num 28 1, kvf := c.num 29 1
    heads := c.num 30 1, sscale := c.num 32 4, qofs := c.num 36 4, oofs := c.num 40 4, hstr := c.num 44 4
    kstr := c.num 48 4, mlofs := c.num 52 4 }
/-- Whether (m, l) pairs are written. -/
def AttBody.ml (x : AttBody) : Bool := x.mlofs != 0xFFFFFFFF

/-- Checks 5 and 7 of Table 24.7 for ATT.DECODE. -/
def attCheck (b : Block) (c : Cmd) : Option (Nat × Nat × Nat) :=
  let x := c.att
  let limits : List (Nat × Bool) :=
    [(24, x.len == 0 || decide (x.len > 2 ^ 24)), (28, decide (c.num 28 1 > 2)),
     (29, !(x.kvf == 0x41 || isScaled8 x.kvf) || (isScaled8 x.kvf && c.num 28 1 == 0)),
     (30, x.heads == 0 || decide (x.heads > 16)), (31, c.nonzero 31 1)] ++
      (List.range 7).map (fun i => (56 + i, c.nonzero (56 + i) 1))
  match limits.find? (·.2) with
  | some (byte, _) => some (2, byte, 0)
  | none =>
    let n := x.heads * x.d * 4
    rangeCheck b ([(36, x.qofs, n), (40, x.oofs, n)] ++ if x.ml then [(52, x.mlofs, 8 * x.heads)] else [])

/-- The computation while it runs: the state, flags, poison of the head, and what stopped it. -/
structure AttRun where
  s : State
  flags : FlagWord
  poison : Option Nat
  bad : Option (Nat × Nat)

/-- An FP32 operation on two codes. -/
def AttRun.op2 (z : AttRun) (g : FV → FV → Res) (a b : Nat) : AttRun × Nat :=
  let r := g (ofIeee fp32 a) (ofIeee fp32 b)
  ({ z with flags := z.flags ||| r.flags }, r.code)
/-- FEXP2 of a difference (R274). -/
def AttRun.expDiff (z : AttRun) (a b : Nat) : AttRun × Nat :=
  let (z1, x) := z.op2 (arSub fp32 .rn) a b
  let r := arFn .exp2 .rn (ofIeee fp32 x)
  ({ z1 with flags := z1.flags ||| r.flags }, r.code)

/-- A row of keys or values: its elements' values by chunks of 128, each with its scale. -/
def AttRun.row (z : AttRun) (core asid : Nat) (x : AttBody) (base h t : Nat) : AttRun × List (List FV × FV) :=
  if z.bad.isSome then (z, [])
  else
    let n := if x.kvf = 0x41 then 2 * x.d else x.d + x.d / 128
    let (s1, bs, e) := z.s.engRead core (4 * (core / 4) + 2) asid false (base + h * x.hstr + t * x.kstr) n
    let z1 := { z with s := s1, bad := e, poison := orPoison z.poison (poisonAmong bs) }
    if x.kvf = 0x41 then
      let es := (groupsOf 2 bs.length bs).map (fun y => ofIeee bf16 (elemCode y))
      (z1, (groupsOf 128 es.length es).map (fun g => (g, .fin false 1 0)))
    else
      let es := (bs.take x.d).map (fun y => b8Value (x.kvf % 32) y.1.toNat)
      (z1, ((groupsOf 128 es.length es).zip (bs.drop x.d)).map (fun g => (g.1, b8Value b8Scale g.2.1.toNat)))

/-- The score of one key (R274, R88). -/
def attScore (x : AttBody) (q : List FV) (krow : List (List FV × FV)) (z : AttRun) : AttRun × Nat :=
  let qs := groupsOf 128 q.length q
  let (c, w) := (qs.zip krow).foldl (fun (acc : Word × FlagWord) g =>
    let (y, w) := kStep acc.1 g.1 g.2.1 (.fin false 1 0) (List.replicate g.2.1.length g.2.2)
    (y, acc.2 ||| w)) (0#32, 0)
  { z with flags := z.flags ||| w }.op2 (arMul fp32 .rn) c.toNat x.sscale

/-- A value row as exact elements, each with its block's scale applied (R82), and the flags of the products; an element without a scale
is taken as it is, so that a signalling NaN still signals in its product (R77). -/
def valueRow (r : List (List FV × FV)) : List (FV × FlagWord) :=
  r.flatMap (fun g => g.1.map (fun v => if g.2 = .fin false 1 0 then (v, 0) else mulFV v g.2))

/-- One block of keys (R274): the new m, l and o. -/
def attBlock (core asid : Nat) (x : AttBody) (h : Nat) (q : List FV) (acc : AttRun × Nat × Nat × List Nat) (blk : Nat) :
    AttRun × Nat × Nat × List Nat :=
  let (z0, m, l, o) := acc
  let ts := (List.range (min 128 (x.len - 128 * blk))).map (128 * blk + ·)
  let (z1, ss) := ts.foldl (fun (a : AttRun × List Nat) t =>
    let (z, kr) := a.1.row core asid x x.kbase h t
    let (z, sc) := attScore x q kr z
    (z, a.2 ++ [sc])) (z0, [])
  let (z2, m') := ss.foldl (fun (a : AttRun × Nat) sc =>
    let r := arMinMax fp32 true a.2 sc
    ({ a.1 with flags := a.1.flags ||| r.flags }, r.code)) (z1, m)
  let (z3, f) := z2.expDiff m m'
  let (z4, l1) := z3.op2 (arMul fp32 .rn) l f
  let (z5, es, l2) := ss.foldl (fun (a : AttRun × List Nat × Nat) sc =>
    let (z, e) := a.1.expDiff sc m'
    let (z, y) := z.op2 (arAdd fp32 .rn) a.2.2 e
    (z, a.2.1 ++ [e], y)) (z4, [], l1)
  let (z6, vs) := ts.foldl (fun (a : AttRun × List (List FV)) t =>
    let (z, r) := a.1.row core asid x x.vbase h t
    let vr := valueRow r
    ({ z with flags := z.flags ||| flagsAmong vr }, a.2 ++ [vr.map (·.1)])) (z5, [])
  let (z7, o') := (o.zipIdx).foldl (fun (a : AttRun × List Nat) y =>
    let (z, o1) := a.1.op2 (arMul fp32 .rn) y.1 f
    let (z, o2) := (es.zip vs).foldl (fun (c : AttRun × Nat) ev =>
      let p := arMul fp32 .rn (ofIeee fp32 ev.1) (ev.2.getD y.2 (.zero false))
      { c.1 with flags := c.1.flags ||| p.flags }.op2 (arAdd fp32 .rn) c.2 p.code) (z, o1)
    (z, a.2 ++ [o2])) (z6, [])
  (z7, m', l2, o')

/-- One head (R274): its outputs, m and l. -/
def attHead (core asid : Nat) (b : Block) (x : AttBody) (z : AttRun) (h : Nat) : AttRun × List Nat × Nat × Nat :=
  let qb := z.s.engScr b (x.qofs + h * x.d * 4) (x.d * 4)
  let q := (groupsOf 4 qb.length qb).map (fun y => ofIeee fp32 (elemCode y))
  let z0 := { z with poison := poisonAmong qb }
  let (z1, m, l, o) := (List.range ((x.len + 127) / 128)).foldl
    (fun acc k => if acc.1.bad.isSome then acc else attBlock core asid x h q acc k) (z0, 0xFF800000, 0, List.replicate x.d 0)
  let (z2, out) := o.foldl (fun (a : AttRun × List Nat) y =>
    let (z, r) := a.1.op2 (arDiv .rn) y l
    (z, a.2 ++ [r])) (z1, [])
  (z2, out, m, l)

/-- Every head in ascending order: the pieces of their outputs and pairs. -/
def State.attRun (s : State) (core : Nat) (b : Block) (c : Cmd) : AttRun × List Piece :=
  let x := c.att
  (List.range x.heads).foldl (fun (acc : AttRun × List Piece) h =>
    if acc.1.bad.isSome then acc
    else
      let (z, out, m, l) := attHead core c.asid b x acc.1 h
      if z.bad.isSome then (z, acc.2)
      else
        let bytes (ws : List Nat) : List PByte := (ws.flatMap (leBytes 4)).map (fun y => (y, z.poison))
        (z, acc.2 ++ scrPieces b (x.oofs + h * x.d * 4) (bytes out) ++
          if x.ml then scrPieces b (x.mlofs + 8 * h) (bytes [m, l]) else [])) (⟨s, 0, none, none⟩, [])

/-- The attention decode engine of a site is fenced (R438): the command that runs on it is abandoned, and firmware reports the site. -/
def State.fenceAtt (s : State) (site : Nat) : State :=
  if ((s.site site).unit 4).fenced then s
  else
    let s1 := s.modSite site (fun x =>
      { x with units := Sparse.modify x.units 4 SiteEngine.reset (fun u => { u with fenced := true }) })
    (((s1.site site).running.filter (fun r => r.engine == 6)).foldl (fun s r => s.abandonRunning r 7 0 0) s1).emit
      (.report "site degraded" [site])

/-- The engine starts a command; a third residue failure fences it and abandons the command (R424, R438). -/
def State.startAtt (residueOk : Bool) (core : Nat) (s : State) (c : Cmd) (b : Block) : State :=
  if residueOk then
    let (z, ps) := s.attRun core b c
    z.s.startCmd core 6 c ps z.flags (ps.any (fun p => p.poison != [])) (z.bad.map (fun e => (e.1, 0, e.2)))
  else (s.fenceAtt (core / 4)).abandon c 7 0 0

/-- ATT_DECODE (R260, R274, R438): the engine takes up the next command; a fenced one abandons it. -/
def State.attTake (s : State) (site : Nat) (residueOk : Bool) : State :=
  match s.siteHead site 4 [6] with
  | none => s
  | some (core, c) =>
    let fenced := ((s.site site).unit 4).fenced
    let s1 := if fenced && c.op == 0x20 && (!c.gnv || c.released) then (s.popCmd core c).abandon c 7 0 0
      else s.takeUp core c [0x20] attCheck (State.startAtt residueOk core)
    if ((s1.core core).queueOf c.qn).any (fun d => d.id == c.id) then s1 else s1.rotate site 4 core
/-- ATT_DECODE (R274). -/
def execAttDecode (site : Nat) (residueOk : Bool) (s : State) : Out := .next (s.attTake (site % 16) residueOk)

end Sys2Proof.Machine
end

