-- ==== Sys2Proof/Machine/Launch.lean ====
section
/-!
DEFINITION. Launch descriptors (R278, R279, R445), what the scheduler reads and writes in memory, bind records (Table 13.4),
launch tables (R287), and the records with which launches complete (R281, R440).
-/
namespace Sys2Proof.Machine

/-! ### Descriptors -/

/-- A launch descriptor's fields (Table 13.2). -/
def parseDesc (bs : List Byte) : Desc :=
  let f := fld bs 60 4
  { entry := BitVec.ofNat 56 (fld bs 0 8), const := fld bs 8 8, compl := fld bs 16 8, tlbase := fld bs 24 8
    nblk := fld bs 32 4 + 1, scratch := fld bs 36 4, mirrOfs := fld bs 40 4, mirrLen := fld bs 44 4, loc := fld bs 48 4
    tlSets := fld bs 52 4, affin := fld bs 56 4, restartable := f.testBit 28, mirrored := f.testBit 29
    affinity := f.testBit 30, strict := f.testBit 31, quilt := bitsOf f 24 4, acc := bitsOf f 20 4, regs := bitsOf f 12 8
    ntid := bitsOf f 0 12
    fps := (List.range 4).map (fun i => (fld bs (64 + 16 * i) 8, fld bs (72 + 16 * i) 4, fld bs (76 + 16 * i) 4)) }

/-- L, the slot levels of a block (R21). -/
def Desc.levels (d : Desc) : Nat := (d.ntid + 191) / 192

/-- Whether a VA field has bits outside [55:k]. -/
def badVa (v k : Nat) : Bool := decide (v ≥ 2 ^ 56) || decide (v % 2 ^ k ≠ 0)

/-- Whether a mirrored window obeys R70. -/
def Desc.windowOk (d : Desc) : Bool :=
  !d.mirrored ||
    (decide (d.mirrOfs % 128 = 0) && decide (d.mirrLen % 128 = 0) && decide (d.mirrOfs + d.mirrLen ≤ d.scratch))

/-- The conditions of R445 and R279 on a descriptor alone; `addrs` includes CONST and COMPL. -/
def Desc.formOk (d : Desc) (entry : Nat) : Bool :=
  !badVa entry 2 && !badVa d.const 3 && !badVa d.compl 4 && !badVa d.tlbase 4 &&
  decide (1 ≤ d.ntid ∧ d.ntid ≤ 3072) && decide (1 ≤ d.regs ∧ d.regs ≤ 128) && decide (1 ≤ d.quilt ∧ d.quilt ≤ 8) &&
  decide (d.acc ≤ 8) && decide (d.scratch % 128 = 0) && decide (d.scratch ≤ 2 ^ 21) && decide (d.loc % 16 = 0) &&
  decide (d.nblk % d.quilt = 0) && d.windowOk &&
  (decide (d.quilt < 2) || decide (2 * d.scratch ≤ 2 ^ 21 ∧ 2 * d.acc ≤ 8 ∧ 2 * d.levels ≤ 16))

/-! ### The scheduler's own accesses -/

/-- The place of a scheduler access (R445): none where the VA fails translation, where U is missing and the ASID is not 0, or
where the leaf names memory other than DRAM; a write needs W. -/
def State.schedPa (s : State) (asid va : Nat) (w : Bool) : Option (Nat × Bool) :=
  if va ≥ 2 ^ 56 then none
  else match s.walk 0 asid va with
  | .ok e => if (asid != 0 && !e.u) || e.mt == 2 || (w && !e.w) then none else some (e.pa va, e.mt == 1)
  | .fail _ _ => none

/-- Reads `n` bytes at a VA of an ASID. -/
def State.readVa (s : State) (asid va n : Nat) : Option (List Byte) :=
  (lineRuns va n).foldr (fun r acc =>
    match s.schedPa asid r.1 false, acc with
    | some (pa, _), some bs => some (s.readHome pa r.2 ++ bs)
    | _, _ => none) (some [])

/-- A scheduler read of `n` bytes at a VA leaves what any read does: the walks' and its own lines at their home slices, and the counts of
R65; the scheduler is site 0's controller (log 42), at router (2, 1) in quadrant 1 (R10). -/
def State.touchVa (s : State) (asid va n : Nat) : State :=
  (lineRuns va n).foldl (fun s r => match s.schedPa asid r.1 false with
    | some (pa, unc) => (s.walkTouch 1 asid r.1).touchHome pa unc 1
    | none => s) s

/-- Whether `n` bytes at a VA may be written. -/
def State.canWrite (s : State) (asid va n : Nat) : Bool := (lineRuns va n).all (fun r => (s.schedPa asid r.1 true).isSome)

/-- Writes bytes at a VA of an ASID, as site 0's controller does (log 42). -/
def State.writeVa (s : State) (asid va : Nat) (bs : List Byte) : State :=
  (lineRuns va bs.length).foldl (fun s r =>
    match s.schedPa asid r.1 true with
    | some (pa, unc) => (s.walkTouch 1 asid r.1).engWriteRun 0 pa unc ((bs.drop (r.1 - va)).take r.2) []
    | none => s) s

/-- Words of a list of bytes. -/
def wordsOf (bs : List Byte) (n : Nat) : List Word := (List.range n).map (fun i => BitVec.ofNat 32 (fld bs (4 * i) 4))

/-! ### Launch tables (R287) -/

/-- A launch-table entry's descriptor. -/
def Core.ltDesc (c : Core) (e : Nat) : Desc := parseDesc ((c.ltBytes e).take 128)
/-- A launch-table entry's constants. -/
def Core.ltConsts (c : Core) (e : Nat) : List Word := wordsOf ((c.ltBytes e).drop 128) 64
/-- What a launch puts into a launch-table entry. -/
def Launch.ltBytes (l : Launch) : List Byte := l.bytes ++ l.consts.flatMap (fun w => leBytes 4 w.toNat)
/-- Firmware writes a launch-table entry and sets its LTVALID bit. -/
def Core.setLt (c : Core) (e : Nat) (bs : List Byte) : Core :=
  { c with launches := Sparse.set c.launches e bs, ltvalid := c.ltvalid ||| (1#64 <<< e) }
/-- Whether a PRE or RUN record of the core names a launch-table entry. -/
def Core.ltNamed (c : Core) (e : Nat) : Bool := c.records.any (fun r => r.2.state != 0 && r.2.ltag == e)
/-- The entries that a launch no longer needs become free, but for those that saved images bound to the core name. -/
def Core.dropLt (c : Core) (kept : List Nat) (bs : List Byte) : Core :=
  let gone := (List.range 64).filter (fun e => c.ltvalid.getLsbD e && c.ltBytes e == bs && !c.ltNamed e && !kept.contains e)
  { c with ltvalid := gone.foldl (fun m e => m &&& ~~~(1#64 <<< e)) c.ltvalid }

/-- The launch-table entries that saved images bound to a core name. -/
def State.boundTags (s : State) (core : Nat) : List Nat :=
  (s.saved.filter (fun x => x.bound == some core)).map (·.record.ltag)

/-! ### Completion (R281, R440, R444) -/

/-- CODE (Table 25.1). -/
def Launch.code (l : Launch) : Nat :=
  if l.invalid then 6 else if l.doubleFault then 3 else if l.failed then 2 else if l.unplaceable then 4
  else if l.skipped then 5 else 1

/-- STATUS (Table 25.1). -/
def statusWord (lost code : Nat) : Nat := min lost 0xFFFF * 2 ^ 16 + code

/-- The completion record (Table 13.3), written where COMPL names a place that can be written; else firmware reports the
queue and the ring index of an invalid launch (R445). -/
def State.writeRecord (s : State) (asid compl lost code : Nat) (where_ : List Nat) : State :=
  if compl = 0 ∨ badVa compl 4 = true ∨ s.canWrite asid compl 16 = false then
    (if code = 6 then s.emit (.report "invalid launch" where_) else s)
  else s.writeVa asid compl (leBytes 4 (statusWord lost code) ++ leBytes 4 0 ++ leBytes 8 s.clk)

/-- The nodes of a graph that name a node as a successor. -/
def predsOf (g : List GraphNode) (n : Nat) : List Nat :=
  (List.range g.length).filter (fun m => match g[m]? with | some x => x.succs.contains n | none => false)

/-- A node completes (R444): after any CODE but 0x01 every later node completes at once with CODE 0x05, and so on. -/
def State.nodeDone (s : State) (run node code : Nat) : Nat → State
  | 0 => s
  | fuel + 1 =>
    match Sparse.get? s.runs run with
    | none => s
    | some r =>
      let s1 := { s with runs := Sparse.set s.runs run { r with nodes := r.nodes.set node (.done code) } }
      if code = 1 then s1
      else
        let g := Sparse.getD s1.graphs r.gid []
        let next := match g[node]? with | some x => x.succs | none => []
        next.foldl (fun s n =>
          match Sparse.get? s.runs run, g[n]? with
          | some r1, some x =>
            if r1.nodes[n]? = some .waiting then
              let d := parseDesc x.desc
              let s2 := s.writeRecord (s.queue r1.queue).asid d.compl d.nblk 5 []
              s2.nodeDone run n 5 fuel
            else s
          | _, _ => s) s1

/-- A run completes when every node has (R283). -/
def State.runCheck (s : State) (run : Nat) : State :=
  match Sparse.get? s.runs run with
  | some r =>
    if r.nodes.all (fun x => match x with | .done _ => true | _ => false) then
      { s with runs := Sparse.erase s.runs run }.modQueue r.queue (fun q => { q with run := none })
    else s
  | none => s

/-- A launch is over: its record is written as a release at .sys, its queue or graph run goes on, and its launch-table entries
and its site's reservation are free (R281, R287, R440, R449). -/
def State.endLaunch (s : State) (l : Launch) : State :=
  let idx := ((s.queue l.queue).head + 2 ^ 32 - 1) % 2 ^ 32
  let s1 := s.writeRecord l.asid l.desc.compl l.lost l.code [l.queue, idx]
  let s2 : State :=
    { s1 with
      launches := Sparse.erase s1.launches l.id
      cores := Sparse.mapVals s1.cores (fun k c => c.dropLt (s1.boundTags k) l.ltBytes)
      sites := Sparse.mapVals s1.sites (fun _ x =>
        { x with reservation := match x.reservation with
            | some r => if r.launch = l.id then none else some r
            | none => none })
      migrations := s1.migrations.filter (fun m => m.1 != l.id)
      quiltSince := s1.quiltSince.filter (fun c => c.1 / 2 ^ 32 != l.id) }
  match l.node with
  | none => s2.modQueue l.queue (fun q => { q with current := none })
  | some (run, n) => (s2.nodeDone run n l.code 4096).runCheck run

end Sys2Proof.Machine
end

