-- ==== Sys2Proof/Machine/Place.lean ====
section
/-!
DEFINITION. Placement (R288 to R290, R293, R449, R451): the work a queue offers next, what the cores have free, the order of
sites and cores, and the places that firmware may choose.
-/
namespace Sys2Proof.Machine

/-! ### What a core has free -/

/-- What the RUN records of a core take: ranges of slot levels, scratchpad units and tiles, seam sets, slot-table entries,
and the members of the quilt that is being placed. -/
structure Use where
  core : Nat
  lev : List (Nat × Nat)
  scr : List (Nat × Nat)
  til : List (Nat × Nat)
  seams : List Nat
  entries : List Nat
  mine : Nat
  deriving DecidableEq, Repr

/-- Whether [a, a + n) meets a range. -/
def meets (a n : Nat) (r : Nat × Nat) : Bool := n != 0 && r.2 != 0 && decide (a < r.1 + r.2 ∧ r.1 < a + n)
/-- Whether n units from a are free below a limit. -/
def freeAt (used : List (Nat × Nat)) (limit n a : Nat) : Bool := decide (a + n ≤ limit) && used.all (fun r => !meets a n r)
/-- The lowest base of n free units below a limit. -/
def firstGap (used : List (Nat × Nat)) (limit n : Nat) : Option Nat :=
  ((0 :: used.map (fun r => r.1 + r.2)).filter (freeAt used limit n)).foldl
    (fun acc x => match acc with | some y => some (min x y) | none => some x) none

/-- Slot levels that an entry's record takes (R21): those of its resident block, else of its launch-table entry. -/
def State.levelsOf (s : State) (core e : Nat) : Nat :=
  match s.block? (bkOf core e) with
  | some b => b.desc.levels
  | none => ((s.core core).ltDesc ((s.core core).record e).ltag).levels

/-- What a core has in use; the entries of `gone` count as free. -/
def State.useOf (s : State) (core : Nat) (gone : List Nat) : Use :=
  let rs := (s.core core).records.filter (fun r => r.2.state == 2 && !gone.contains r.1)
  { core := core
    lev := rs.map (fun r => (r.2.slotb, s.levelsOf core r.1)), scr := rs.map (fun r => (r.2.spbase, r.2.spsize))
    til := rs.map (fun r => (r.2.abase, r.2.accn)), seams := rs.map (fun r => r.2.seamset)
    entries := ((s.core core).records.filter (fun r => r.2.state != 0 && !gone.contains r.1)).map (·.1), mine := 0 }

/-- Free slot levels of a core. -/
def Use.free (u : Use) : Nat := 16 - (u.lev.map (·.2)).sum

/-- Whether a PRE or RUN record of a core, or a saved image bound to it, names a launch-table entry, which then stays as it is
(R287). -/
def State.ltNamed (s : State) (core e : Nat) : Bool :=
  (s.core core).ltNamed e || (s.boundTags core).contains e

/-- A launch-table entry for a launch (R287): one that holds it, a free one, or one that nothing names. -/
def State.ltFor (s : State) (core : Nat) (bs : List Byte) : Option Nat :=
  let c := s.core core
  let all := List.range 64
  match all.find? (fun e => c.ltvalid.getLsbD e && c.ltBytes e == bs) with
  | some e => some e
  | none => match all.find? (fun e => !c.ltvalid.getLsbD e && !s.ltNamed core e) with
    | some e => some e
    | none => all.find? (fun e => !s.ltNamed core e)

/-- Whether a launch-table entry may serve a launch. -/
def State.ltMay (s : State) (core : Nat) (bs : List Byte) (e : Nat) : Bool :=
  decide (e < 64) && (((s.core core).ltvalid.getLsbD e && (s.core core).ltBytes e == bs) || !s.ltNamed core e)

/-- The lowest place on a core for a block of a launch. -/
def State.pick (s : State) (l : Launch) (u : Use) : Option Choice :=
  if (s.core u.core).fenced || (s.site (u.core / 4)).fenced then none
  else match firstGap u.lev 16 l.desc.levels, firstGap u.scr 16384 (l.desc.scratch / 128), firstGap u.til 8 l.desc.acc,
      (List.range 16).find? (fun k => !u.seams.contains k), (List.range 64).find? (fun e => !u.entries.contains e),
      s.ltFor u.core l.ltBytes with
  | some b, some sp, some a, some k, some e, some t => some ⟨u.core, e, t, b, k, a, sp * 128⟩
  | _, _, _, _, _, _ => none

/-- Whether a place that firmware chose is free (R286, R448). -/
def State.choiceOk (s : State) (l : Launch) (u : Use) (c : Choice) : Bool :=
  c.core == u.core && !(s.core u.core).fenced && !(s.site (u.core / 4)).fenced &&
  freeAt u.lev 16 l.desc.levels c.slotb && decide (c.spbase % 128 = 0) &&
  freeAt u.scr 16384 (l.desc.scratch / 128) (c.spbase / 128) && decide (c.abase < 8) && freeAt u.til 8 l.desc.acc c.abase &&
  decide (c.seamset < 16) && !u.seams.contains c.seamset && decide (c.entry < 64) && !u.entries.contains c.entry &&
  s.ltMay u.core l.ltBytes c.ltag

/-- A core's use with one block more. -/
def Use.add (u : Use) (l : Launch) (c : Choice) : Use :=
  { u with
    lev := (c.slotb, l.desc.levels) :: u.lev, scr := (c.spbase / 128, l.desc.scratch / 128) :: u.scr
    til := (c.abase, l.desc.acc) :: u.til, seams := c.seamset :: u.seams, entries := c.entry :: u.entries
    mine := u.mine + 1 }

/-! ### Work -/

/-- A block or a whole quilt that waits to be placed (R288): its launch, and each member's block index with its saved context,
in rank order. -/
structure WorkUnit where
  launch : Nat
  blks : List (Nat × Option Saved)
  deriving DecidableEq, Repr

/-- The resident blocks of a launch. -/
def State.residentOf (s : State) (l : Nat) : List (Nat × Block) := s.blocks.filter (fun b => b.2.launch == l)
/-- The saved blocks of a launch. -/
def State.savedOf (s : State) (l : Nat) : List Saved := s.saved.filter (fun x => x.block.launch == l)

/-- The thread-local set of a block (R280). -/
def Desc.tlSet (d : Desc) (b : Nat) : Nat := if d.tlSets = 0 then b else b % d.tlSets

/-- The RUN records whose block has not started yet (R302), by core and entry. -/
def State.waitingRecs (s : State) : List (Nat × Nat × BindRecord) :=
  s.cores.flatMap (fun c => (c.2.records.filter (fun r => r.2.state == 2 && (s.block? (bkOf c.1 r.1)).isNone)).map (fun r => (c.1, r.1, r.2)))
/-- Those of them that firmware wrote for a launch. -/
def State.recordsWaiting (s : State) (launch : Nat) : List (Nat × Nat × BindRecord) :=
  s.waitingRecs.filter (fun w => Sparse.get? (s.core w.1).placed w.2.1 == some launch)

/-- Whether a block of the launch is resident, waits in its record, is saved, has ended or is lost. -/
def State.begunBlk (s : State) (l : Launch) (b : Nat) : Bool :=
  l.ended.contains b || l.lostBlks.contains b || (s.residentOf l.id).any (fun c => c.2.blk == b) ||
    (s.savedOf l.id).any (fun x => x.block.blk == b) || (s.recordsWaiting l.id).any (fun w => w.2.2.blk == b)

/-- The first block from `b` that has not begun, passing over at most `fuel` that have. -/
def State.skipBegun (s : State) (l : Launch) (b : Nat) : Nat → Nat
  | 0 => b
  | fuel + 1 => if s.begunBlk l b then s.skipBegun l (b + 1) fuel else b

/-- The members of the quilt that block `b` begins. -/
def Desc.quiltFrom (d : Desc) (b : Nat) : List Nat := (List.range d.quilt).map (b / d.quilt * d.quilt + ·)

/-- The saved units of a launch that are whole (R42): every member of the quilt that has neither ended nor been lost is saved, and no
record waits to restore it. -/
def State.savedUnits (s : State) (l : Launch) : List WorkUnit :=
  let may := (s.savedOf l.id).filter (fun x => !x.broken && s.waitingRecs.all (fun w => !(w.2.2.rst && w.2.2.ctx == x.ctx)))
  ((may.map (fun x => x.block.blk / l.desc.quilt * l.desc.quilt)).eraseDups).filterMap (fun first =>
    let ms := (l.desc.quiltFrom first).filter (fun b => !l.ended.contains b && !l.lostBlks.contains b)
    let xs := ms.filterMap (fun b => may.find? (fun y => y.block.blk == b))
    if xs.length = ms.length then some ⟨l.id, xs.map (fun y => (y.block.blk, some y))⟩ else none)

/-- The unit of the quilt that block `b` begins, unless a block of one of its thread-local sets is resident or saved (R280). -/
def State.freshUnit (s : State) (l : Launch) (b : Nat) : Option WorkUnit :=
  let ms := l.desc.quiltFrom b
  let sets := ms.map l.desc.tlSet
  let live := (s.residentOf l.id).map (fun c => l.desc.tlSet c.2.blk) ++ (s.savedOf l.id).map (fun x => l.desc.tlSet x.block.blk)
  if sets.any live.contains || !decide sets.Nodup then none else some ⟨l.id, ms.map (fun m => (m, none))⟩

/-- The first block of a launch that has not begun. -/
def State.firstFresh (s : State) (l : Launch) : Nat := s.skipBegun l l.next (l.desc.nblk - l.next)

/-- The units of a launch that wait, in the order of R288 and R442: saved ones first, then those to be dispatched again, then those
not yet dispatched. One that has no room holds back none behind it (R335). A launch that cannot be placed has only its saved ones (R443). -/
def State.units (s : State) (l : Launch) : List WorkUnit :=
  if l.invalid then []
  else if l.unplaceable then s.savedUnits l
  else
    let first := s.firstFresh l
    let later := ((List.range ((l.desc.nblk - first) / l.desc.quilt)).map (fun i => first + i * l.desc.quilt)).filter (fun b =>
      !s.begunBlk l b && !l.redo.contains b)
    s.savedUnits l ++ (l.redo ++ later).filterMap (s.freshUnit l)

/-- The first unit of a launch that waits. -/
def State.nextUnit (s : State) (l : Launch) : Option WorkUnit := (s.units l).head?

/-! ### Sites and cores (R289, R290) -/

/-- The pages of 64 KiB that the footprints of a block cover, each once (R289). -/
def Desc.pieces (d : Desc) (b : Nat) : List Nat :=
  let rs := (d.fps.filter (fun f => f.2.2 != 0)).map (fun f =>
    ((f.1 + b * f.2.1) / 65536, (f.1 + b * f.2.1 + f.2.2 - 1) / 65536))
  (rs.zipIdx).flatMap (fun x =>
    ((List.range (x.1.2 + 1 - x.1.1)).map (x.1.1 + ·)).filter (fun p =>
      !((rs.take x.2).any (fun r => decide (r.1 ≤ p ∧ p ≤ r.2)))))

/-- Where a piece is homed (R54), and the vault when its frame is vault-local (R55). -/
def State.pieceHome (s : State) (asid p : Nat) : Option (Nat × Option Nat) :=
  (s.placementHome asid p).1.map (fun site =>
    (site, match s.walk 0 asid (p * 65536) with
      | .ok e =>
        let F := frameOf (paOfs (e.pa (p * 65536)))
        if (s.site site).frameMode F = 1 then some ((s.site site).frameSel F) else none
      | .fail _ _ => none))

/-- The counted pieces of blocks: page, site and vault. -/
def State.counted (s : State) (asid : Nat) (d : Desc) (bs : List Nat) : List (Nat × Nat × Option Nat) :=
  bs.flatMap (fun b => (d.pieces b).filterMap (fun p => (s.pieceHome asid p).map (fun h => (p, h))))

/-- Free slot levels of a site; a fenced core offers none. -/
def State.siteFree (s : State) (site : Nat) : Nat :=
  ((List.range 4).map (fun i => if (s.core (site * 4 + i)).fenced then 0 else (s.useOf (site * 4 + i) []).free)).sum

/-- The sites in the order of R289 and R290, room ignored. The affinity of a launch that cannot be placed any more binds its saved blocks
no longer (R442, R443). -/
def State.siteOrder (s : State) (l : Launch) (u : WorkUnit) : List Nat :=
  let d := l.desc
  match u.blks.findSome? (fun x => x.2.bind (·.bound)) with
  | some c => [c / 4]
  | none =>
    if d.affinity && !l.unplaceable then [hCore d.affin / 4]
    else
      let ps := s.counted l.asid d (u.blks.map (·.1))
      let cnt (k : Nat) : Nat := (ps.filter (fun p => p.2.1 == k)).length
      let low (k : Nat) : Nat := ((ps.filter (fun p => p.2.1 == k)).map (·.1)).foldl min (2 ^ 64)
      let all := List.range 16
      let by1 := sortBy (fun a b => decide (cnt b < cnt a) || (cnt a == cnt b && decide (low a ≤ low b)))
        (all.filter (fun k => cnt k != 0))
      let by2 := sortBy (fun a b => decide (s.siteFree b ≤ s.siteFree a)) (all.filter (fun k => cnt k == 0))
      let order := by1 ++ by2
      let base := if d.strict then order.take 1 else order
      match s.migrations.find? (fun m => m.1 == l.id && u.blks.any (fun x => x.1 == m.2.1)) with
      | some m => m.2.2 :: base.filter (· != m.2.2)
      | none => base

/-- Whether the reservation of a site lets a unit be placed there (R449, R451): that of its own quilt does; that of another quilt of its
launch does unless the unit has been moved, or saved since the clearing of the site began (log 38). -/
def State.siteOpen (s : State) (l : Launch) (u : WorkUnit) (site : Nat) : Bool :=
  match (s.site site).reservation with
  | some r => r.launch == l.id &&
      (u.blks.any (fun x => x.1 / l.desc.quilt == r.quilt) ||
        (s.migrations.all (fun m => !(m.1 == l.id && u.blks.any (fun x => x.1 == m.2.1))) &&
          u.blks.all (fun x => match x.2 with | some y => !r.clearing || y.bound.isSome | none => true)))
  | none => true

/-- The core for one member, and its place (R290): `want` is the place that firmware chose. -/
def State.placeOne (s : State) (l : Launch) (us : List Use) (b : Nat) (x : Option Saved) (want : Option Choice) :
    Option (Choice × List Use) :=
  let vs := (s.counted l.asid l.desc [b]).filterMap (fun p => p.2.2.map (fun v => (p.2.1, v)))
  let local_ (u : Use) : Nat := (vs.filter (fun v => v.1 * 4 + v.2 == u.core)).length
  let forced : Option Nat := match x.bind (·.bound) with
    | some c => some c
    | none => if l.desc.affinity && !l.unplaceable then some (hCore l.desc.affin) else none
  let order := sortBy (fun a b => decide (local_ b < local_ a) ||
    (local_ a == local_ b && (decide (b.free < a.free) || (a.free == b.free && decide (a.core ≤ b.core))))) us
  let may := order.filter (fun u => decide (u.mine < 2) && (match forced with | some c => u.core == c | none => true))
  match may.find? (fun u => (s.pick l u).isSome) with
  | none => none
  | some u =>
    let c : Option Choice := match want with
      | some w => if s.choiceOk l u w then some w else none
      | none => s.pick l u
    c.map (fun c => (c, us.map (fun v => if v.core = u.core then v.add l c else v)))

/-- Places for every member of a unit on a site, in rank order; the entries of `gone` count as free. -/
def State.fitSite (s : State) (l : Launch) (u : WorkUnit) (gone : List (Nat × Nat)) (want : List Choice) (site : Nat) :
    Option (List Choice) :=
  let us := (List.range 4).map (fun i => s.useOf (site * 4 + i) ((gone.filter (fun g => g.1 == site * 4 + i)).map (·.2)))
  (u.blks.zipIdx.foldl (fun (acc : Option (List Choice × List Use)) m =>
    match acc with
    | none => none
    | some (cs, us) => (s.placeOne l us m.1.1 m.1.2 want[m.2]?).map (fun r => (cs ++ [r.1], r.2))) (some ([], us))).map (·.1)

/-- The site that takes a unit now: the first open one with room. -/
def State.siteFor (s : State) (l : Launch) (u : WorkUnit) : Option Nat :=
  (s.siteOrder l u).find? (fun k => s.siteOpen l u k && (s.fitSite l u [] [] k).isSome)

/-! ### The scheduler's turn (R288) -/

/-- The launches of a queue in the order of their beginning. -/
def State.launchesOf (s : State) (q : Nat) : List Launch := (s.launches.filter (fun x => x.2.queue == q)).map (·.2)

/-- The first placeable unit of a queue, with its site. -/
def State.placeable (s : State) (q : Nat) : Option (Launch × WorkUnit × Nat) :=
  if !(s.queue q).en then none
  else (s.launchesOf q).findSome? (fun l =>
    (s.units l).findSome? (fun u => (s.siteFor l u).map (fun k => (l, u, k))))

/-- The queues with a launch in progress. -/
def State.busyQueues (s : State) : List Nat := ((s.launches.map (fun x => x.2.queue)).eraseDups)

/-- The unit that the scheduler dispatches next: of the highest priority with placeable work, the queue whose turn it is. -/
def State.nextWork (s : State) : Option (Launch × WorkUnit × Nat) :=
  let ws := s.busyQueues.filterMap (fun q => (s.placeable q).map (fun w => (q, w)))
  let top := (ws.map (fun w => (s.queue w.1).prio)).foldl max 0
  let qs := sortBy (fun a b => decide (a.1 ≤ b.1)) (ws.filter (fun w => (s.queue w.1).prio == top))
  let last := Sparse.get? s.turns top
  match qs.find? (fun w => match last with | some k => decide (k < w.1) | none => true) with
  | some w => some w.2
  | none => qs.head?.map (·.2)

end Sys2Proof.Machine
end

