-- ==== Sys2Proof/Machine/Blocks.lean ====
section
/-!
DEFINITION. Blocks come and go: start and restore (R286, R287, R293), pre-emption and the saved context (R292, R111, R256,
R275), the end of a block (R41), and blocks that are lost (R442).
-/
namespace Sys2Proof.Machine

/-! ### Starting -/

/-- A thread that has just started at a PC; its registers start at 0 (log 3). -/
def Thread.init (pc : BitVec 56) : Thread :=
  { pc := pc, mode := .user, v := [], p := 0, h := [], tpc := 0, tcause := 0, tval := 0, tinfo := 0, depth := 0, ret := []
    skeins := 1, trapSkein := none, pst := 0, sleepAt := 0, wait := .none, waitSince := 0, pends := [], marks := []
    reports := [], trapNext := [], pendTrap := none, pendFault := none, delivers := none, refill := none, spec := none, readyAt := []
    predAt := [], hb := [], seen := [], fenced := [], ordered := [], walkFail := none, replayed := false
    bankAt := [], flagsDue := [], issued := 0, entering := 0, exited := false }

/-- A block as its bind record and its launch's fields make it (R286). -/
def mkBlock (s : State) (core e : Nat) (r : BindRecord) (d : Desc) (ks : List Word) (launch asid : Nat) : Block :=
  { core := core, bslot := e, launch := launch, asid := asid, blk := r.blk, desc := d, consts := ks, slotb := r.slotb
    seamset := r.seamset, abase := r.abase, accn := r.accn, spbase := r.spbase * 128, spsize := r.spsize * 128
    qrank := r.qrank
    peers := (List.range d.quilt).map (fun j => (core / 4 * 4 + (r.peer j).1, (r.peer j).2))
    presence := 0, orphans := 0, seams := [], flags := [], arms := [], raised := []
    phases := [(0, { Phase.empty s.clk with waiting := List.range d.ntid })], trapSkeins := [], trapCount := 0, nodes := []
    marks := 0, halted := false, haltSent := false, stopping := false, doubleFault := false, discard := false, pause := none
    skippedAt := none, born := s.nextId, since := s.clk, savedEntries := [], savedCmds := [] }

/-- Whether two blocks are members of one quilt. -/
def Block.mate (a b : Block) : Bool := a.launch == b.launch && a.blk / a.desc.quilt == b.blk / b.desc.quilt
/-- A member that becomes resident is present to every resident member of its quilt, and they to it (R399). -/
def State.setPresence (s : State) (b : Block) : State :=
  let bits := (s.blocks.filter (fun c => c.2.mate b)).foldl (fun m c => m ||| (1#8 <<< c.2.qrank)) 0#8
  { s with blocks := Sparse.mapVals s.blocks (fun _ d => if d.mate b then { d with presence := d.presence ||| bits } else d) }
/-- A member that ends is present no longer (R399), in the images of saved members neither. -/
def State.clearPresence (s : State) (b : Block) : State :=
  let less (d : Block) : Block := if d.mate b then { d with presence := d.presence &&& ~~~(1#8 <<< b.qrank) } else d
  { s with blocks := Sparse.mapVals s.blocks (fun _ d => less d), saved := s.saved.map (fun x => { x with block := less x.block }) }

/-- The quantum of a queue begins when one of its blocks becomes resident (R291). -/
def State.armQuantum (s : State) (q : Nat) : State :=
  s.modQueue q (fun x => match x.quantum with
    | none => { x with quantum := some (s.clk + x.quant * 2100) }
    | some _ => x)

/-- Clears a range of a core's scratchpad with its poison, and tiles, for a block that starts afresh (log 3). -/
def Core.clearFor (c : Core) (b : Block) : Core :=
  { c with
    scratch := c.scratch.filter (fun x => !(decide (b.spbase ≤ x.1 ∧ x.1 < b.spbase + b.spsize)))
    scrPoison := c.scrPoison.filter (fun x => !(decide (b.spbase ≤ x.1 * 16 ∧ x.1 * 16 < b.spbase + b.spsize)))
    tiles := c.tiles.filter (fun x => !(decide (b.abase ≤ x.1 / 65536 ∧ x.1 / 65536 < b.abase + b.accn)))
    tilePoison := c.tilePoison.filter (fun x => !(decide (b.abase ≤ x / 128 ∧ x / 128 < b.abase + b.accn))) }

/-- A block and its threads become resident; the instruction cache of the core is invalidated (R63). -/
def State.letIn (s : State) (b : Block) (ts : Sparse Thread) : State :=
  let bk := bkOf b.core b.bslot
  let s1 := (s.modCore b.core (fun c => { c with icache := [] })).setBlock bk b
  let s2 : State := { s1 with threads := ts.foldl (fun (m : Sparse Thread) t => Sparse.set m (bk * 4096 + t.1) t.2) s1.threads }
  let s3 := (s2.setPresence b).bumpId
  match s3.launch? b.launch with
  | some l => s3.armQuantum l.queue
  | none => s3

/-- A fresh start (R286, R442); a block that was dispatched before keeps its age (R291). -/
def State.startFresh (s : State) (core e launch asid : Nat) : State :=
  let c := s.core core
  let r := c.record e
  let k := match s.launch? launch with | some l => Sparse.getD l.born r.blk s.nextId | none => s.nextId
  let b := { mkBlock s core e r (c.ltDesc r.ltag) (c.ltConsts r.ltag) launch asid with born := k }
  let ts := (List.range b.desc.ntid).map (fun t => (t, Thread.init b.desc.entry))
  ((s.modLaunch launch (fun l => { l with born := Sparse.set l.born r.blk k })).modCore core (fun c => c.clearFor b)).letIn b ts

/-! ### Thread records and context images (Tables 13.5 and 13.6, R292 to R294) -/

/-- The number of a thread's trap skein, as its record gives it (R294). -/
def State.tagOf (s : State) (tk : Nat) (t : Thread) : Nat :=
  match t.trapSkein, s.block? (tkBk tk) with
  | some n, some b => b.trapTag n
  | _, _ => 0xFFFF

/-- A thread's record (Table 13.6). -/
def State.recordOf (s : State) (tk : Nat) (t : Thread) : List Byte :=
  leBytes 8 (t.recordPc.toNat + if t.mode = .trap then 2 ^ 63 else 0) ++ leBytes 8 t.tpc.toNat ++ leBytes 8 t.tval.toNat ++
    leBytes 8 (t.tcause.toNat % 256 + t.tinfo.toNat % 2 ^ 32 * 2 ^ 32) ++ leBytes 4 t.skeins.toNat ++ leBytes 2 t.depth ++
    leBytes 1 t.preds.toNat ++
    leBytes 1 (bit1 t.exited + 2 * bit1 (match t.wait with | .bar _ _ => true | _ => false) + 4 * bit1 (t.wait == .sleep) +
      8 * bit1 t.pendFault.isSome + 16 * bit1 (t.reports != [])) ++
    leBytes 8 t.sleepAt ++ leBytes 4 t.pst ++ leBytes 2 (s.tagOf tk t) ++ leBytes 10 0 ++
    (List.range 8).flatMap (fun i => leBytes 8 (if i < t.depth then (Sparse.getD t.ret (t.depth - i) 0).toNat else 0)) ++
    (List.range 8).flatMap (fun i => leBytes 4 (t.bank i).toNat) ++ leBytes 96 0

/-- The thread with the fields of a record that a debugger may write; bit [3] of byte 39 can only be cleared. A thread that waits at
BAR goes on at the PC written once it is released (log 27). -/
def Thread.withRecord (t : Thread) (bs : List Byte) : Thread :=
  let depth := min (fld bs 36 2) 1024
  let pc := BitVec.ofNat 56 (fld bs 0 8)
  let u : Thread := if (fld bs 39 1).testBit 3 then t else { t.dropHeld with pendFault := none }
  { u with
    pc := match t.wait with | .bar _ _ => pc - 12#56 | _ => pc
    tpc := BitVec.ofNat 64 (fld bs 8 8 % 2 ^ 56 / 4 * 4)
    tval := BitVec.ofNat 64 (fld bs 16 8), tcause := BitVec.ofNat 64 (fld bs 24 1), tinfo := BitVec.ofNat 64 (fld bs 28 4)
    depth := depth, p := BitVec.ofNat 8 (fld bs 38 1), sleepAt := fld bs 40 8, pst := fld bs 48 4
    ret := (List.range (min 8 depth)).foldl (fun m i => Sparse.set m (depth - i) (BitVec.ofNat 64 (fld bs (64 + 8 * i) 8))) t.ret
    h := (List.range 8).map (fun i => (i, BitVec.ofNat 32 (fld bs (128 + 4 * i) 4))) }

/-- A context image's sections, in the order of Table 13.5. -/
inductive Section where
  | header | matrix | threads | registers | marks | stores | reports | seams | flags | traps | engines | quilt | scratchpad
  deriving DecidableEq, Repr

/-- The sections in order. -/
def Section.all : List Section :=
  [.header, .matrix, .threads, .registers, .marks, .stores, .reports, .seams, .flags, .traps, .engines, .quilt, .scratchpad]

/-- The markers held with the stores (R111): those that still order one of them. -/
def Saved.markers (x : Saved) : Nat := x.block.marks - ((x.stores.map (·.mark)).foldl min x.block.marks)
/-- Bytes of a section; those of the engines' section are not given (log 12). -/
def Saved.size (x : Saved) : Section → Nat
  | .header | .flags => 256
  | .matrix => 262144 * x.block.accn + 1024
  | .threads => 256 * x.threads.length
  | .registers => 4 * x.block.desc.regs * x.threads.length
  | .marks => 4 * (x.threads.map (fun t => t.2.marks.length)).sum
  | .stores => 32 * (x.stores.length + x.markers)
  | .reports => 24 * (x.threads.map (fun t => t.2.reports.length)).sum
  | .seams | .quilt => 64
  | .traps => 16 * x.block.trapSkeins.length
  | .engines => Config.engineSection x.cmds.length
  | .scratchpad => x.block.spsize

/-- The address of a section: the sections follow one another from CTX on. -/
def Saved.at_ (x : Saved) (z : Section) : Nat := x.ctx + ((Section.all.takeWhile (· != z)).map x.size).sum
/-- Bytes of the whole image. -/
def Saved.total (x : Saved) : Nat := (Section.all.map x.size).sum

/-- The kind of a fixing arrival (R294): 0 for BAR, and the model's numbers for the collectives (log 12). -/
def arrivalKind : Op → Nat
  | .vote => 1
  | .ballot => 2
  | .shfl => 3
  | .skred => 4
  | .skmatch => 5
  | _ => 0
/-- The opcode of a kind. -/
def kindOp (n : Nat) : Op := [Op.bar, .vote, .ballot, .shfl, .skred, .skmatch].getD n .bar

/-- A section's bytes as the streaming save engine writes them (R294); those whose layout the manual does not give are free values. -/
def State.sectionBytes (s : State) (bk : Nat) (x : Saved) (z : Section) : List Byte :=
  let free (n : Nat) : List Byte := (List.range n).map (fun i => Config.imageByte s.fresh (x.at_ z - x.ctx + i))
  match z with
  | .header => leBytes 8 x.record.w0.toNat ++ leBytes 8 x.record.w1.toNat ++ leBytes 8 x.record.w2.toNat ++ x.ref ++ free 216
  | .matrix =>
    x.tiles.flatMap (fun i => (List.range 65536).flatMap (fun k => leBytes 4 (Sparse.getD i.2.1 k 0).toNat)) ++ free 1024
  | .threads => x.threads.flatMap (fun t => s.recordOf (bk * 4096 + t.1) t.2)
  | .registers => x.threads.flatMap (fun t => (List.range x.block.desc.regs).flatMap (fun r => leBytes 4 (t.2.reg r).toNat))
  | .marks => x.threads.flatMap (fun t => t.2.marks.flatMap (fun m =>
      leBytes 2 t.1 ++ leBytes 1 m.1 ++ leBytes 1 ((if m.2.cause = 0x14 then 128 else 0) + m.2.sub % 16)))
  | .reports => x.threads.flatMap (fun t => t.2.reports.flatMap (fun r =>
      leBytes 2 t.1 ++ leBytes 1 r.cause ++ leBytes 5 0 ++ leBytes 8 r.tval ++ leBytes 4 r.tinfo ++ leBytes 4 0))
  | .traps => x.block.trapSkeins.flatMap (fun k =>
      leBytes 2 k.tag ++ leBytes 1 k.members.length ++ leBytes 1 k.phase.arrived.length ++ leBytes 1 k.flags.toNat ++ leBytes 3 0 ++
        leBytes 8 (match k.phase.fixed with | some (pc, op) => arrivalKind op * 2 ^ 60 + pc.toNat | none => 0))
  | .scratchpad => (List.range x.block.spsize).map (fun i => Sparse.getD x.scratch i 0)
  | z => free (x.size z)

/-- Writes bytes of an image at their home slices. -/
def State.putImage (s : State) (site pa : Nat) (bs : List Byte) : State :=
  (lineRuns pa bs.length).foldl (fun s r => s.engWriteRun site r.1 false ((bs.drop (r.1 - pa)).take r.2) []) s

/-- The whole image is written, section by section (R292 steps 2 and 3). -/
def State.writeImage (s : State) (bk : Nat) (x : Saved) : State :=
  (Section.all.foldl (fun s1 z => s1.putImage (x.block.core / 4) (x.at_ z) (s.sectionBytes bk x z)) s).bumpFresh

/-- The bytes of a section as a restore reads them (R293). -/
def State.readSection (s : State) (x : Saved) (z : Section) : List Byte := s.readHome (x.at_ z) (x.size z)

/-- The restore engine's reads of an image go through the home slices (R65). -/
def State.touchImage (s : State) (core : Nat) (x : Saved) : State :=
  (lineRuns x.ctx x.total).foldl (fun s r => s.touchHome r.1 false core) s

/-- The entries of `n` bytes of a section. -/
def entriesOf (n : Nat) (bs : List Byte) : List (List Byte) :=
  (List.range (bs.length / n)).map (fun i => (bs.drop (n * i)).take n)

/-- A thread with its record, its registers, its marks and its held reports as an image gives them (R293, R294). -/
def Thread.fromImage (t : Thread) (x : Saved) (thr : Nat) (record regs : List Byte) (marks reports : List (List Byte)) : Thread :=
  let mine (l : List (List Byte)) : List (List Byte) := l.filter (fun e => fld e 0 2 == thr)
  { t.withRecord record with
    mode := if (fld record 0 8).testBit 63 then .trap else .user
    skeins := BitVec.ofNat 16 (fld record 32 4)
    trapSkein := (x.block.trapSkeins.find? (fun z => z.tag == fld record 52 2)).map (·.num)
    v := (List.range x.block.desc.regs).map (fun r => (r, BitVec.ofNat 32 (fld regs (4 * r) 4)))
    marks := (mine marks).map (fun e => (fld e 2 1, ⟨if (fld e 3 1).testBit 7 then 0x14 else 0x07, fld e 3 1 % 16⟩))
    reports := (mine reports).map (fun e => ⟨fld e 2 1, fld e 8 8, fld e 16 4⟩) }

/-- A thread with bits [2:0] of byte 39 of its record: exited, waiting at BAR, sleeping. One that is to wait at BAR does so where its
arrival stands, else at the lowest skein that it is a member of (log 12). -/
def Thread.withWait (t : Thread) (b : Block) (thr bits : Nat) : Thread :=
  let atBar := match t.wait with | .bar _ _ => true | _ => false
  let k := match (b.phases.filter (fun z => z.2.arrived.any (fun a => a.t == thr))).map (·.1) ++
      (List.range 16).filter t.skeins.getLsbD with | k :: _ => k | [] => 0
  { t with
    exited := bits.testBit 0
    wait := if bits.testBit 1 then (if atBar then t.wait else .bar false k)
      else if bits.testBit 2 then .sleep
      else if atBar || t.wait == .sleep then .none else t.wait }

/-- A trap skein with its entry of an image (R294); its members are the threads whose records name it, `ms`, and of its arrivals so many
have come as the entry counts. -/
def TrapSkein.fromImage (z : TrapSkein) (e : List Byte) (ms : List Nat) : TrapSkein :=
  let n := fld e 3 1
  { z with
    flags := BitVec.ofNat 4 (fld e 4 1)
    members := z.members.filter ms.contains ++ ms.filter (fun i => !z.members.contains i)
    phase := { z.phase with
      arrived := z.phase.arrived.take n
      waiting := z.phase.waiting ++ (z.phase.arrived.drop n).map (·.t)
      fixed := if fld e 8 8 = 0 then none else some (BitVec.ofNat 56 (fld e 8 8), kindOp (fld e 8 8 / 2 ^ 60)) } }

/-- An image with the sections that memory holds read back (R293). -/
def State.readImage (s : State) (x : Saved) : Saved :=
  let n := x.block.desc.regs
  let recs := s.readSection x .threads
  let regs := s.readSection x .registers
  let marks := entriesOf 4 (s.readSection x .marks)
  let reports := entriesOf 24 (s.readSection x .reports)
  let traps := entriesOf 16 (s.readSection x .traps)
  let words := s.readSection x .matrix
  { x with
    threads := x.threads.zipIdx.map (fun t =>
      let rec_ := (recs.drop (256 * t.2)).take 256
      (t.1.1, (t.1.2.fromImage x t.1.1 rec_ ((regs.drop (4 * n * t.2)).take (4 * n)) marks reports).withWait x.block t.1.1 (fld rec_ 39 1)))
    block := { x.block with
      trapSkeins := x.block.trapSkeins.map (fun z => match traps.find? (fun e => fld e 0 2 == z.tag) with
        | some e => z.fromImage e ((x.threads.zipIdx.filter (fun t => fld recs (256 * t.2 + 52) 2 == z.tag)).map (·.1.1))
        | none => z) }
    tiles := x.tiles.zipIdx.map (fun i => (i.1.1, ((List.range 65536).filterMap (fun k =>
      let w := fld words (262144 * i.2 + 4 * k) 4
      if w = 0 then none else some (k, BitVec.ofNat 32 w)), i.1.2.2)))
    scratch := (s.readSection x .scratchpad).zipIdx.filterMap (fun y => if y.1 = 0 then none else some (y.2, y.1)) }

/-- Where firmware puts the k-th image that stands in memory at one time: areas of 8 MiB of this device's DRAM (log 12). -/
def State.ctxAt (s : State) (k : Nat) : Nat :=
  let n := (Config.contextArea + k) % 2 ^ 17
  paOf s.devno 0 (n / 2 ^ 13) (n % 2 ^ 13 * 2 ^ 23)
/-- Whether firmware may allocate an image area: no saved image lies there, and no failed save of it was met (R414), and none of its
frames is homed in a fenced vault (R415); where no such area is left, the first does. -/
def State.areaOk (s : State) (pa : Nat) : Bool :=
  s.saved.all (fun x => x.ctx != pa) && !s.badAreas.contains pa &&
    (let x := s.site (paSite pa)
     (List.range 4).all (fun i =>
      let F := frameOf (paOfs pa) + i
      if x.frameMode F = 1 then !x.vaultFenced.getLsbD (x.frameSel F) else x.vaultFenced == 0))
/-- The first of so many areas from one on that firmware may allocate. -/
def State.areaFrom (s : State) (k : Nat) : Nat → Nat
  | 0 => s.ctxAt 0
  | fuel + 1 => if s.areaOk (s.ctxAt k) then s.ctxAt k else s.areaFrom (k + 1) fuel
/-- CTX of the next image. -/
def State.nextCtx (s : State) : Nat := s.areaFrom 0 (2 ^ 17)

/-- The launch reference of an image's header (R287). -/
def Launch.refBytes (l : Launch) : List Byte :=
  leBytes 2 l.queue ++ leBytes 2 (match l.node with | some (_, n) => n | none => 0xFFFF) ++ leBytes 4 (l.seq % 2 ^ 32) ++ leBytes 8 l.ref

/-! ### Images and blocks that are lost -/

/-- A saved context is discarded: its entries give their in-use counts back. -/
def State.discardSaved (s : State) (x : Saved) : State :=
  let s1 : State := { s with saved := s.saved.filter (fun y => y.ctx != x.ctx) }
  x.entries.foldl (fun s e => if e.handle = 0 then s else s.useRes e.handle (-1)) s1

/-- A block is lost with its quilt (R442 steps 3 and 4): it is dispatched again at most twice if the launch is restartable and no
member has met a double fault, else every other member is counted. -/
def State.loseUnit (s : State) (launch blk : Nat) : State :=
  match s.launch? launch with
  | none => s
  | some l =>
    let first := blk / l.desc.quilt * l.desc.quilt
    let ms := l.desc.quiltFrom blk
    let live := ms.filter (fun m => !l.lostBlks.contains m && (s.residentOf launch).all (fun b => b.2.blk != m || !b.2.doubleFault))
    if l.redo.contains first ∨ live = [] then s else
    let s1 := ((s.savedOf launch).filter (fun x => ms.contains x.block.blk)).foldl (fun s x => s.discardSaved x) s
    let s2 := { s1 with blocks := Sparse.mapVals s1.blocks (fun _ b =>
      if b.launch = launch ∧ ms.contains b.blk = true ∧ !b.doubleFault then { b with stopping := true, discard := true } else b) }
    s2.modLaunch launch (fun l =>
      let n := Sparse.getD l.tries first 0
      let l1 := { l with ended := l.ended.filter (fun x => !ms.contains x) }
      if l.desc.restartable && decide (n < 2) && !l.unplaceable && live.length == ms.length then
        { l1 with redo := insertBy (fun x y => decide (x ≤ y)) first (l1.redo.filter (· != first)), tries := Sparse.set l1.tries first (n + 1) }
      else { l1 with lost := l1.lost + live.length, lostBlks := l1.lostBlks ++ live, failed := true })

/-! ### Restoring (R293) -/

/-- Entries and commands of a restored block enter the queues of its core as there is room, ahead of new ones (R256, R275). -/
def State.reenter (s : State) (bk : Nat) : State :=
  match s.block? bk with
  | none => s
  | some b =>
    let room := 16 - (s.core b.core).mxq.length
    let s1 := s.modCore b.core (fun c => { c with mxq := c.mxq ++ b.savedEntries.take room })
    let (s2, left) := b.savedCmds.foldl (fun (acc : State × List Cmd) c =>
      if acc.2.all (fun d => d.qn != c.qn) && (acc.1.core b.core).queueRoom c.qn then (acc.1.enqueue b.core c.qn c, acc.2)
      else (acc.1, acc.2 ++ [c])) (s1, [])
    (s2.modBlock bk (fun b => { b with savedEntries := b.savedEntries.drop room, savedCmds := left })).startOthers b.core

/-- A thread at its saved PC: windows are closed, and a fault that waited is met again, if at all, by its instruction (R293,
R364). -/
def Thread.resume (t : Thread) (clk : Nat) : Thread :=
  { t with
    pends := t.pends.map (fun p => { p with left := 0 }), pendFault := none, delivers := none, readyAt := [], predAt := []
    bankAt := [], waitSince := clk }

/-- The restore of a saved block into an entry whose record has been written (R293): its image is read from memory, and its launch's
fields and constants from the launch-table entry that the record names (R287). -/
def State.restoreInto (s0 : State) (core e : Nat) (image : Saved) : State :=
  let x := s0.readImage image
  let s := s0.touchImage core x
  let r := (s.core core).record e
  let bk := bkOf core e
  let key (tk : Nat) : Nat := bk * 4096 + tkThr tk
  let d := (s.core core).ltDesc r.ltag
  let b : Block :=
    { x.block with
      desc := d, consts := (s.core core).ltConsts r.ltag, core := core, bslot := e, slotb := r.slotb, seamset := r.seamset, abase := r.abase, spbase := r.spbase * 128
      peers := (List.range d.quilt).map (fun j => (core / 4 * 4 + (r.peer j).1, (r.peer j).2))
      since := s.clk, stopping := false, pause := none
      savedEntries := x.entries.map (fun y => { y with since := s.clk, tk := key y.tk, tile := y.tile + r.abase, tile2 := y.tile2 + r.abase })
      savedCmds := x.cmds.map (fun c => { c with tk := key c.tk, due := s.now core + 1 })
      nodes := Sparse.mapVals x.block.nodes (fun _ n =>
        { n with held := n.held.map (fun c => { c with tk := key c.tk, heldSince := s.clk }) }) }
  let s1 := s.modCore core (fun c =>
    let c1 := c.clearFor b
    { c1 with
      scratch := x.scratch.foldl (fun m y => Memory.write m (b.spbase + y.1) y.2) c1.scratch
      scrPoison := x.poison.foldl (fun m y => Sparse.set m (b.spbase / 16 + y.1) y.2) c1.scrPoison
      tiles := x.tiles.foldl (fun m z => z.2.1.foldl (fun m y => Sparse.set m ((b.abase + z.1) * 65536 + y.1) y.2) m) c1.tiles
      slots := Sparse.mapVals c1.slots (fun j z => { z with poison := z.poison || x.slotPoison.contains j })
      tilePoison := c1.tilePoison ++ x.tiles.flatMap (fun z => z.2.2.map (fun row => (b.abase + z.1) * 128 + row)) })
  let was := bkOf x.block.core x.block.bslot
  let owner (k : Release) : Release := if tkBk k.tk = was then { k with tk := key k.tk } else k
  let s2 : State :=
    { s1 with
      releases := x.rels.foldl (fun m y => Sparse.set m (relKey (1 + bk, y.1) 0) (y.2.map owner)) s1.releases
      reqs := s1.reqs ++ x.stores.map (fun q =>
        { q with
          tk := key q.tk, stage := .held, gen := match q.place with | .dram pa _ => s.genOfPa pa | _ => 0
          dom := match q.place with | .dram pa _ => s.domainOfPa pa | _ => 0
          due := s.accessDue (key q.tk) q.place (figureOf q.place q.act / 2), ackDue := s.ackDue (key q.tk) q.place (figureOf q.place q.act) })
      saved := s1.saved.filter (fun y => y.ctx != x.ctx) }
  (((s2.letIn b (x.threads.map (fun t => (t.1, t.2.resume s.clk)))).bumpFresh).reenter bk).releaseHeld core

/-- The launch of an entry: the one firmware placed there, else one whose launch-table bytes the entry's record names; and its
ASID. -/
def State.launchOfEntry (s : State) (core e : Nat) : Nat × Nat :=
  let c := s.core core
  let bs := c.ltBytes (c.record e).ltag
  let l : Option Launch := match (Sparse.get? c.placed e).bind s.launch? with
    | some l => some l
    | none => (s.launches.find? (fun x => x.2.ltBytes == bs)).map (·.2)
  match l with
  | some l => (l.id, l.asid)
  | none => (s.nextId + 2 ^ 64, 0)

/-- An image that stands in memory at CTX and that the machine has not saved: its sections of fixed size are read; those that vary or whose
layout the manual does not give are taken as empty (log 12). -/
def State.strangeImage (s : State) (core e launch asid : Nat) : Saved :=
  let c := s.core core
  let r := c.record e
  let b := mkBlock s core e r (c.ltDesc r.ltag) (c.ltConsts r.ltag) launch asid
  { record := r, ref := [], block := b, threads := (List.range b.desc.ntid).map (fun t => (t, Thread.init b.desc.entry))
    tiles := (List.range b.accn).map (fun i => (i, ([], []))), entries := [], slotPoison := [], stores := [], rels := [], cmds := [], scratch := []
    poison := [], ctx := r.ctx, bound := none, broken := false, clk := s.clk }

/-- A RUN record starts its block unless the site is in TS7, where it waits (R286, R302), or its core is fenced (R441). An image whose
store-buffer section holds poison is not restored, and its block is lost (R414). -/
def State.startRecord (s : State) (core e : Nat) : State :=
  let r := (s.core core).record e
  if r.state ≠ 2 ∨ (s.block? (bkOf core e)).isSome ∨ s.applied (core / 4) = 7 ∨ (s.core core).fenced = true ∨
    (s.site (core / 4)).fenced = true then s
  else
    let (launch, asid) := s.launchOfEntry core e
    if r.rst then
      match s.saved.find? (fun x => x.ctx == r.ctx) with
      | some x =>
        if x.broken then s
        else if (s.poisonIn (x.at_ .stores) (x.size .stores)).isSome then (s.setRecordState core e 0).loseUnit x.block.launch x.block.blk
        else s.restoreInto core e x
      | none => s.restoreInto core e (s.strangeImage core e launch asid)
    else s.startFresh core e launch asid

/-- Starts every RUN record of a site that waits. -/
def State.startWaiting (s : State) : State :=
  s.cores.foldl (fun s c => c.2.records.foldl (fun s r => if r.2.state = 2 then s.startRecord c.1 r.1 else s) s) s

/-- Firmware writes a launch-table entry and a bind record (R286, R287). `ps` are the places of the whole quilt by rank, with their
cores. -/
def State.writeBind (s : State) (l : Launch) (blk rank : Nat) (c : Choice) (ps : List (Nat × Nat)) (x : Option Saved) : State :=
  let w2 := (ps.zipIdx.map (fun p => ((p.1.1 % 4) * 64 + p.1.2) * 2 ^ (8 * p.2))).sum
  let w3 := match x with | some y => y.ctx + 1 | none => 0
  let r : BindRecord :=
    ⟨recordWord0 2 c.ltag c.slotb c.seamset c.abase l.desc.acc rank blk,
     BitVec.ofNat 64 (l.desc.scratch / 128 * 2 ^ 32 + c.spbase / 128), BitVec.ofNat 64 w2, BitVec.ofNat 64 w3⟩
  s.modCore c.core (fun k =>
    { (k.setLt c.ltag l.ltBytes) with records := Sparse.set k.records c.entry r, pre := Sparse.erase k.pre c.entry })

/-- Firmware writes a record that starts its block (R286). -/
def State.bindOne (s : State) (l : Launch) (blk rank : Nat) (c : Choice) (ps : List (Nat × Nat)) (x : Option Saved) : State :=
  ((s.writeBind l blk rank c ps x).modCore c.core (fun k => { k with placed := Sparse.set k.placed c.entry l.id })).startRecord
    c.core c.entry

/-- The control node receives the halt record of each live thread of a block (Table 21.7). -/
def State.emitHalts (s : State) (bk : Nat) (b : Block) (why : Nat) : State :=
  { s with out := s.out ++ (s.threadsOf bk).filterMap (fun c =>
      if c.2.exited then none else some (.halt (haltRecord s.clk c.1 why c.2 b.stopping))) }

/-! ### Leaving -/

/-- The space of a block's record is free, and nothing of the block is left on its core. -/
def State.removeBlock (s : State) (bk : Nat) (b : Block) : State :=
  let mine (tk : Nat) : Bool := tkBk tk == bk
  let s1 : State :=
    { s with
      threads := s.threads.filter (fun c => !mine c.1), ckpts := s.ckpts.filter (fun c => !mine c.1)
      blocks := Sparse.erase s.blocks bk
      releases := s.releases.filter (fun c => c.1 / 2 ^ 60 != 1 + bk)
      slices := Sparse.mapVals s.slices (fun k x =>
        if k / 6 = b.core then
          { x with
            latch := x.latch.filter (fun e => !e.members.any mine)
            table := x.table.filter (fun e => e.bslot != b.bslot), unlisted := x.unlisted.filter (fun u => !mine u.2) }
        else x) }
  let s2 := (s1.setRecordState b.core b.bslot 0).modCore b.core (fun c => { c with placed := Sparse.erase c.placed b.bslot })
  match s2.launch? b.launch with
  | some l =>
    if s2.blocks.any (fun c => match s2.launch? c.2.launch with | some k => k.queue == l.queue | none => false) then s2
    else s2.modQueue l.queue (fun q => { q with quantum := none })
  | none => s2

/-- Whether an engine command of a block is queued or running. -/
def State.cmdsOf (s : State) (bk : Nat) (b : Block) : Bool :=
  s.runnings.any (fun r => tkBk r.cmd.tk == bk) || b.savedCmds != [] ||
    (s.core b.core).queues.any (fun q => q.2.any (fun c => tkBk c.tk == bk))
/-- Whether a copy command of a block is queued or running (R295). -/
def State.copiesOf (s : State) (bk : Nat) (b : Block) : Bool :=
  s.runnings.any (fun r => tkBk r.cmd.tk == bk && decide (r.engine < 2)) || b.savedCmds.any (fun c => decide (c.qn < 2)) ||
    (s.core b.core).queues.any (fun q => decide (q.1 < 2) && q.2.any (fun c => tkBk c.tk == bk))

/-- Whether a block is over (R41, R434): its threads have exited, and their stores, commands and matrix entries are complete. -/
def State.endReady (s : State) (bk : Nat) (b : Block) : Bool :=
  (s.threadsOf bk).all (fun c => c.2.exited) && s.reqs.all (fun r => tkBk r.tk != bk) && !s.cmdsOf bk b &&
    b.savedEntries == [] && (s.core b.core).mxq.all (fun e => tkBk e.tk != bk)

/-- A store of a thread that may be saved: not yet under way, and not to a scratchpad (R111, R292 step 1). -/
def Req.savable (r : Req) : Bool :=
  r.act.writes && r.pend.isNone && r.stage == .held && (match r.place with | .scr _ => false | _ => true)

/-- Whether a running command is a block's, or still writes the block's scratchpad or lands on a barrier in it (R275, R292). -/
def State.runsFor (s : State) (bk : Nat) (r : Running) : Bool :=
  tkBk r.cmd.tk == bk || r.pieces.any (fun p => p.place.spans.any (fun x => x.1 == 1 + bk)) ||
    (match s.block? (tkBk r.cmd.tk) with
    | some b => let c := b.scrCopy r.cmd.bar; bkOf c.1 c.2.1 == bk
    | none => false)

/-- Whether the block's branches, accesses and commands under way have come to an end (R292 step 1, R275). -/
def State.accessStill (s : State) (bk : Nat) : Bool :=
  s.branches.all (fun r => r.members.all (fun m => tkBk m.1 != bk)) &&
  s.reqs.all (fun r =>
    (tkBk r.tk != bk || r.savable) &&
    (match r.place with | .scr cs => cs.all (fun x => bkOf x.1 x.2.1 != bk) | _ => true)) &&
  s.runnings.all (fun r => !s.runsFor bk r)

/-- Whether the block's threads, accesses, engines and matrix unit have come to rest (R292 steps 1 and 2, R256, R275). -/
def State.stopReady (s : State) (bk : Nat) (b : Block) : Bool :=
  let c := s.core b.core
  s.accessStill bk && (c.matrixFenced || c.mxq.all (fun e => tkBk e.tk != bk || !e.started || (e.op == .mma && c.array != some e.id)))

/-- Every window whose result has arrived is written (R292, R293). -/
def State.landAll (s : State) (tk : Nat) : State :=
  match s.thread? tk with
  | none => s
  | some t =>
    t.pends.foldl (fun s p =>
      if !p.ready then s
      else if p.regs = [] then s.land tk p.id 0
      else p.regs.foldl (fun s r => s.land tk p.id r) s) s

/-- A thread stopped for good at its next instruction: a trap that waited stays pending (R364), and waits that its instruction
can begin again are dropped. -/
def Thread.stop (t : Thread) : Thread :=
  { t with
    pendFault := match t.pendTrap with | some (i, _, _) => some i | none => t.pendFault
    pendTrap := none, walkFail := none
    wait := match t.wait with
      | .walk _ | .dataWalk _ | .access | .flags | .specPort | .closing | .bwait .. | .seam .. | .stwait _ | .fence _ | .operand | .marker | .refill | .serial
      | .yielded _ | .matrixRoom _ | .mates _ | .replay _ | .release _ | .window => .none
      | w => w }

/-- The context of a block as it is saved (Table 13.5). -/
def State.contextOf (s : State) (bk : Nat) (b : Block) : Saved :=
  let c := s.core b.core
  let es := (c.mxq ++ b.savedEntries).filter (fun e => tkBk e.tk == bk)
  let stores := s.reqs.filter (fun r => tkBk r.tk == bk)
  { record := c.record b.bslot, ref := (match s.launch? b.launch with | some l => l.refBytes | none => leBytes 16 0)
    block := b, threads := (s.threadsOf bk).map (fun t => (tkThr t.1, t.2))
    tiles := (List.range b.accn).map (fun i =>
      (i, ((c.tiles.filter (fun x => x.1 / 65536 == b.abase + i)).map (fun x => (x.1 % 65536, x.2)),
        (c.tilePoison.filter (fun x => x / 128 == b.abase + i)).map (· % 128))))
    entries := es.map (fun e => { e with tile := e.tile - b.abase, tile2 := e.tile2 - b.abase })
    slotPoison := if es.any (fun e => e.op == .mma || e.op == .rsfill) then (c.slots.filter (fun x => x.2.poison)).map (·.1) else []
    stores := stores
    rels := (s.releases.filter (fun x => x.1 / 2 ^ 60 == 1 + bk)).map (fun x => (x.1 % 2 ^ 60, x.2))
    cmds := (c.queues.flatMap (·.2)).filter (fun d => tkBk d.tk == bk) ++ b.savedCmds
    scratch := (c.scratch.filter (fun x => decide (b.spbase ≤ x.1 ∧ x.1 < b.spbase + b.spsize))).map (fun x => (x.1 - b.spbase, x.2))
    poison := (c.scrPoison.filter (fun x => decide (b.spbase ≤ x.1 * 16 ∧ x.1 * 16 < b.spbase + b.spsize))).map
      (fun x => (x.1 - b.spbase / 16, x.2))
    ctx := s.nextCtx
    bound := if es.any (fun e => e.op == .mma || e.op == .rsfill) then some b.core else none
    broken := stores.any (fun r => (s.slice b.core (sliceOfThr (tkThr r.tk))).failed)
    clk := s.clk }

/-- The block is saved and its record freed (R292 steps 2 to 4), every result written and every flag set (R168); its matrix entries keep their in-use counts (R256). -/
def State.saveBlock (s : State) (bk : Nat) (_ : Block) : State :=
  let s0 := (s.threadsOf bk).foldl (fun s c => ((s.modThread c.1 Thread.stop).landAll c.1).setFlags c.1 (fun _ => true)) s
  match s0.block? bk with
  | none => s
  | some b =>
    let x := s0.contextOf bk b
    let w := s0.writeImage bk x
    let s1 : State := { w with saved := w.saved ++ [x], reqs := w.reqs.filter (fun r => tkBk r.tk != bk) }
    let s2 := s1.modCore b.core (fun c =>
      { c with
        mxq := c.mxq.filter (fun e => tkBk e.tk != bk)
        queues := Sparse.mapVals c.queues (fun _ q => q.filter (fun d => tkBk d.tk != bk)) })
    ((s2.removeBlock bk b).bumpId).releaseHeld b.core

/-- The block is taken away with its context discarded (R356, R442): its waiting entries and commands are dropped. -/
def State.discardBlock (s : State) (bk : Nat) (b : Block) : State :=
  let es := (s.core b.core).mxq.filter (fun e => tkBk e.tk == bk) ++ b.savedEntries
  let s1 := es.foldl (fun s e => s.dropEntry b.core e) s
  let s2 := s1.modCore b.core (fun c =>
    { c with
      array := match c.array with | some i => if es.any (fun e => e.id == i) then none else some i | none => none
      queues := Sparse.mapVals c.queues (fun _ q => q.filter (fun d => tkBk d.tk != bk)) })
  ({ s2 with reqs := s2.reqs.filter (fun r => tkBk r.tk != bk) }.removeBlock bk b).releaseHeld b.core

/-! ### Stopping and losing blocks -/

/-- The resident members of a block's quilt. -/
def State.quiltOf (s : State) (b : Block) : List Nat :=
  (s.blocks.filter (fun c => c.2.launch == b.launch && c.2.blk / c.2.desc.quilt == b.blk / b.desc.quilt)).map (·.1)
/-- Pre-empts a block with its quilt (R42, R292); a thread that has entered its handler in this cycle keeps the trap pending
(R364). -/
def State.preempt (s : State) (b : Block) : State :=
  (s.quiltOf b).foldl (fun s k =>
    ((s.threadsOf k).foldl (fun s c => s.untake c.1) s).modBlock k (fun b => { b with stopping := true, pause := none })) s

/-- A launch that can no longer be placed (R443): what has not been dispatched counts in LOST; its resident and saved blocks run to
their end. -/
def State.unplaceLaunch (s : State) (id : Nat) : State :=
  let live := ((s.residentOf id).filter (fun b => !b.2.discard)).length + (s.savedOf id).length
  s.modLaunch id (fun l => { l with unplaceable := true, redo := [], lost := l.desc.nblk - l.ended.length - live })

/-- A RUN record that waits on a fenced core is FREE again, with those of the rest of its quilt, and a block that had not started is
dispatched elsewhere (R441). -/
def State.freeWaiting (s : State) (w : Nat × Nat × BindRecord) : State :=
  let drop (s : State) (v : Nat × Nat × BindRecord) : State :=
    (s.setRecordState v.1 v.2.1 0).modCore v.1 (fun c => { c with placed := Sparse.erase c.placed v.2.1 })
  if ((s.core w.1).record w.2.1).state ≠ 2 then s
  else match (Sparse.get? (s.core w.1).placed w.2.1).bind s.launch? with
  | none => drop s w
  | some l =>
    let first := w.2.2.blk / l.desc.quilt * l.desc.quilt
    let s1 := ((s.recordsWaiting l.id).filter (fun v => v.2.2.blk / l.desc.quilt == w.2.2.blk / l.desc.quilt)).foldl drop s
    if w.2.2.rst then s1
    else if (s1.residentOf l.id).any (fun b => b.2.blk / l.desc.quilt == w.2.2.blk / l.desc.quilt) then s1.loseUnit l.id w.2.2.blk
    else s1.modLaunch l.id (fun l => { l with redo := insertBy (fun x y => decide (x ≤ y)) first (l.redo.filter (· != first)) })

/-- A core is fenced (R441, R442, R443, R426): its blocks are stopped, images bound to it are lost, launches with affinity to
it cannot be placed. -/
def State.fenceCore (s : State) (core : Nat) : State :=
  if (s.core core).fenced then s
  else
    let s0 := s.modCore core (fun c => { c with fenced := true })
    let s1 := (s0.waitingRecs.filter (fun w => w.1 == core)).foldl State.freeWaiting s0
    let s2 := (s1.blocks.filter (fun b => b.2.core == core)).foldl (fun s b => s.preempt b.2) s1
    let s3 := (s2.saved.filter (fun x => x.bound == some core)).foldl (fun s x => s.loseUnit x.block.launch x.block.blk) s2
    (s3.launches.filter (fun l => l.2.desc.affinity && hCore l.2.desc.affin == core && !l.2.unplaceable)).foldl
      (fun s l => s.unplaceLaunch l.1) s3

/-- The matrix unit of a core is fenced (R424, R426): its entries never complete, every live residency is EVICTED, and the core
is fenced. -/
def State.fenceMatrix (s : State) (core : Nat) : State :=
  (s.modCore core (fun c =>
    { c with
      matrixFenced := true, array := none
      dir := c.dir.map (fun r => if r.live then r.evict else { r with pinned := false }) })).fenceCore core

end Sys2Proof.Machine
end

