-- ==== Sys2Proof/Machine/Sched.lean ====
section
/-!
DEFINITION. The scheduler (chapters 13 and 25): queue registers, launches and graph runs, dispatch, bind records that software
writes, quanta, migrations, quilts that cannot be placed, and the ends of blocks and launches.
-/
namespace Sys2Proof.Machine

/-- Core cycles of a number of microseconds of %clk (R162). -/
def usCycles (n : Nat) : Nat := n * 2100

/-! ### Queue registers (R276, R277, R283, R446) -/

/-- Entries offered and not yet taken. -/
def Queue.pending (q : Queue) : Nat := (q.tail + 2 ^ 32 - q.head) % 2 ^ 32
/-- A write of QCFG: ignored with QUANT = 0. -/
def State.qcfg (s : State) (q : Nat) (v : DWord) : State :=
  let n := v.toNat
  if bitsOf n 32 32 = 0 then s
  else s.modQueue q (fun x =>
    { x with quant := bitsOf n 32 32, asid := bitsOf n 16 12, en := n.testBit 3, prio := bitsOf n 0 3 })
/-- QCFG_WRITE (R446): a queue that is disabled gives its reservations up (R449). -/
def execQcfgWrite (q : Nat) (v : DWord) (s : State) : Out :=
  let s1 := s.qcfg q v
  .next (if bitsOf v.toNat 32 32 = 0 ∨ (s1.queue q).en then s1 else
    { s1 with sites := Sparse.mapVals s1.sites (fun _ x =>
        match x.reservation with
        | some r => match s1.launch? r.launch with
          | some l => if l.queue = q then { x with reservation := none } else x
          | none => x
        | none => x) })

/-- A write of QRING: ignored with a bad size or with entries pending. -/
def State.qring (s : State) (q : Nat) (v : DWord) : State :=
  let n := v.toNat
  s.modQueue q (fun x =>
    if bitsOf n 0 5 = 0 ∨ bitsOf n 0 5 > 16 ∨ x.pending ≠ 0 then x
    else { x with log2n := bitsOf n 0 5, base := bitsOf n 12 44 * 4096 })
/-- QRING_WRITE (R446). -/
def execQringWrite (q : Nat) (v : DWord) (s : State) : Out := .next (s.qring q v)

/-- A write of QTAIL: ignored when it would offer more entries than the ring holds, or goes back. -/
def State.qtail (s : State) (q : Nat) (v : DWord) : State :=
  s.modQueue q (fun x =>
    let y := { x with tail := v.toNat % 2 ^ 32 }
    if y.pending > 2 ^ x.log2n ∨ y.pending < x.pending then x
    else { y with work := x.work ++ List.replicate (y.pending - x.pending) none })
/-- QTAIL_WRITE (R277, R446). -/
def execQtailWrite (q : Nat) (v : DWord) (s : State) : Out := .next (s.qtail q v)

/-- A patch-list entry (R283): node, constant and value; none where a reserved bit is set or a limit is broken (R446). -/
def patchOf (n x : Nat) : Option (Nat × Nat × Nat) :=
  if bitsOf x 46 6 ≠ 0 ∨ bitsOf x 32 8 ≠ 0 ∨ bitsOf x 52 12 ≥ n then none
  else some (bitsOf x 52 12, bitsOf x 40 6, bitsOf x 0 32)
/-- Every element, if each is there. -/
def allSome {α : Type} : List (Option α) → Option (List α)
  | [] => some []
  | some x :: r => (allSome r).map (x :: ·)
  | none :: _ => none
/-- The patches of a list in memory, or none where the write is refused. -/
def State.readPatches (s : State) (q : Queue) (plist : Nat) : Option (List (Nat × Nat × Nat)) :=
  let g := Sparse.getD s.graphs q.gid []
  match s.readVa q.asid plist 8 with
  | none => none
  | some h =>
    let n := leNat h % 8192
    if n > 4096 then none
    else (s.readVa q.asid (plist + 8) (8 * n)).bind (fun bs =>
      allSome ((List.range n).map (fun i => patchOf g.length (fld bs (8 * i) 8))))
/-- What the reads of a patch list leave behind. -/
def State.patchReads (s : State) (asid plist : Nat) : State :=
  (s.touchVa asid plist 8).touchVa asid (plist + 8)
    (match s.readVa asid plist 8 with | some h => if leNat h % 8192 ≤ 4096 then 8 * (leNat h % 8192) else 0 | none => 0)
/-- A write of QTRIG: a run of the graph that is bound is accepted with its patches, or the write is refused. -/
def State.qtrig (s : State) (q : Nat) (v : DWord) : State :=
  let x := s.queue q
  let plist := bitsOf v.toNat 4 52 * 16
  let refuse : State := s.setQueue q { x with refused := true }
  if x.gid = 0xFFFF ∨ x.npend ≥ 255 then refuse
  else
    (s.patchReads x.asid plist).setQueue q (match s.readPatches x plist with
    | some ps => { x with plist := plist, refused := false, work := x.work ++ [some (x.gid, ps)] }
    | none => { x with refused := true })
/-- QTRIG_WRITE (R283, R446). -/
def execQtrigWrite (q : Nat) (v : DWord) (s : State) : Out := .next (s.qtrig q v)

/-! ### Pre-binding (R284) -/

/-- A launch of a queue as it begins. -/
def State.newLaunch (s : State) (q : Nat) (node : Option (Nat × Nat)) (ref : Nat) (bytes : List Byte) (d : Desc) (ks : List Word)
    (valid : Bool) : Launch :=
  let x := s.queue q
  let dead := d.affinity && ((s.resOf d.affin).isNone || (s.core (hCore d.affin)).fenced)
  { id := s.nextId, queue := q, node := node, seq := x.begun, ref := ref, asid := x.asid, bytes := bytes, desc := d
    consts := ks, next := 0, ended := [], lost := if valid && !dead then 0 else d.nblk, redo := [], tries := [], born := []
    lostBlks := [], unplaceable := valid && dead, failed := false, doubleFault := false, skipped := false, invalid := !valid }

/-- The members of a quilt of the first wave get their records, as if they ran, if a site has room for all. -/
def State.preUnit (s : State) (l : Launch) (gid node b : Nat) : Option State :=
  let u : WorkUnit := ⟨l.id, (l.desc.quiltFrom b).map (fun m => (m, none))⟩
  (s.siteFor l u).bind (fun site => (s.fitSite l u [] [] site).map (fun cs =>
    let ps := cs.map (fun c => (c.core, c.entry))
    (u.blks.zip cs).foldl (fun s x =>
      (s.writeBind l x.1.1 (x.1.1 % l.desc.quilt) x.2 ps none).modCore x.2.core (fun c =>
        { c with pre := Sparse.set c.pre x.2.entry (l.queue, gid, node) })) s))

/-- The first wave of a node from block `b` on: as many blocks as have room at once, no two in one thread-local set. -/
def State.preWave (s : State) (l : Launch) (gid node b : Nat) (sets : List Nat) : Nat → State
  | 0 => s
  | fuel + 1 =>
    let mine := (l.desc.quiltFrom b).map l.desc.tlSet
    if b ≥ l.desc.nblk ∨ mine.any sets.contains = true ∨ ¬mine.Nodup then s
    else match s.preUnit l gid node b with
      | some s1 => s1.preWave l gid node (b + l.desc.quilt) (sets ++ mine) fuel
      | none => s

/-- The records that firmware pre-bound for a queue's nodes take another STATE; those that become FREE are nobody's. -/
def State.preState (s : State) (q st : Nat) (p : Nat → Bool) : State :=
  { s with cores := Sparse.mapVals s.cores (fun _ c =>
      let hit (e : Nat) : Bool := match Sparse.get? c.pre e with | some k => k.1 == q && p k.2.2 | none => false
      { c with
        records := Sparse.mapVals c.records (fun e r => if hit e then r.withState st else r)
        pre := if st = 0 then c.pre.filter (fun k => !hit k.1) else c.pre }) }

/-- Firmware pre-binds the first wave of a node that it can place: the records become PRE, which reserves nothing. -/
def State.preNode (s : State) (q gid node : Nat) (n : GraphNode) : State :=
  let d := parseDesc n.desc
  let l := s.newLaunch q (some (0, node)) 0 n.desc d n.consts true
  if d.formOk (fld n.desc 0 8) && !l.unplaceable then (s.preWave l gid node 0 [] 4096).preState q 1 (· == node) else s

/-- The graph bound to a queue is pre-bound; what was pre-bound for the queue before is FREE again. -/
def State.preBind (s : State) (q gid : Nat) : State :=
  (Sparse.getD s.graphs gid []).zipIdx.foldl (fun s n => s.preNode q gid n.2 n.1) (s.preState q 0 (fun _ => true))

/-- A write of QGRAPH: from firmware only, which then pre-binds the graph (R284). -/
def State.qgraph (s : State) (q : Nat) (firmware : Bool) (v : DWord) : State :=
  if firmware then (s.modQueue q (fun x => { x with gid := v.toNat % 65536 })).preBind q (v.toNat % 65536) else s
/-- QGRAPH_WRITE (R284, R446). -/
def execQgraphWrite (q : Nat) (firmware : Bool) (v : DWord) (s : State) : Out := .next (s.qgraph q firmware v)

/-! ### Launches begin (R277, R283, R443, R445) -/

/-- A launch that begins; one that is invalid or cannot be placed completes at once. -/
def State.addLaunch (s : State) (q : Nat) (node : Option (Nat × Nat)) (ref : Nat) (bytes : List Byte) (d : Desc)
    (ks : List Word) (valid : Bool) : State :=
  let l := s.newLaunch q node ref bytes d ks valid
  let s1 := (s.modQueue q (fun x =>
    { x with begun := (x.begun + 1) % 2 ^ 32, current := if node.isNone then some l.id else x.current })).bumpId
  if l.invalid || l.unplaceable then s1.endLaunch l else s1.setLaunch l.id l

/-- The next ring entry of a queue, where it can be read. -/
def State.ringEntry (s : State) (x : Queue) : Option Nat := (s.readVa x.asid (x.base + 8 * (x.head % 2 ^ x.log2n)) 8).map leNat
/-- The descriptor that it names, where that can be read. -/
def State.ringDesc (s : State) (x : Queue) : Option (List Byte) :=
  (s.ringEntry x).bind (fun r => if r % 128 = 0 then s.readVa x.asid r 128 else none)
/-- What the reads of the entry, of the descriptor and of its constants leave behind. -/
def State.ringReads (s : State) (x : Queue) : State :=
  let s0 := s.touchVa x.asid (x.base + 8 * (x.head % 2 ^ x.log2n)) 8
  match s.ringDesc x with
  | none => s0
  | some bs =>
    let s1 := s0.touchVa x.asid ((s.ringEntry x).getD 0) 128
    if (parseDesc bs).formOk (fld bs 0 8) then s1.touchVa x.asid (parseDesc bs).const 256 else s1
/-- The next ring entry of a queue is taken (R277, R445). -/
def State.beginRing (s : State) (q : Nat) : State :=
  let x := s.queue q
  let ref := (s.ringEntry x).getD 0
  let s1 := (s.ringReads x).setQueue q { x with head := (x.head + 1) % 2 ^ 32, work := x.work.drop 1 }
  match s.ringDesc x with
  | none => s1.addLaunch q none ref [] { parseDesc [] with nblk := 0, compl := 0 } [] false
  | some bs =>
    let d := parseDesc bs
    let form := d.formOk (fld bs 0 8)
    let ks := if form then s.readVa x.asid d.const 256 else none
    let valid := form && ks.isSome && (d.compl == 0 || s.canWrite x.asid d.compl 16)
    s1.addLaunch q none ref bs d (wordsOf (ks.getD []) 64) valid

/-- LAUNCH_BEGIN (R277): an enabled queue with nothing in progress takes the ring entry that is next in its work. -/
def execLaunchBegin (q : Nat) (s : State) : Out :=
  let x := s.queue q
  .next (match x.work with
    | none :: _ => if x.en && x.current.isNone && x.run.isNone then s.beginRing q else s
    | _ => s)

/-- A patch sets a constant of a node (R283). -/
def patchGraph (g : List GraphNode) (p : Nat × Nat × Nat) : List GraphNode :=
  match g[p.1]? with
  | some n => g.set p.1 { n with consts := n.consts.set p.2.1 (BitVec.ofNat 32 p.2.2) }
  | none => g

/-- The next trigger of a queue becomes a run in progress (R283). -/
def State.beginRun (s : State) (q gid : Nat) (ps : List (Nat × Nat × Nat)) : State :=
  let x := s.queue q
  let g := ps.foldl patchGraph (Sparse.getD s.graphs gid [])
  let r : Run := ⟨s.nextId, q, gid, List.replicate g.length .waiting⟩
  let s1 : State := { s with graphs := Sparse.set s.graphs gid g, runs := Sparse.set s.runs r.id r }
  ((s1.setQueue q { x with run := some r.id, work := x.work.drop 1 }).bumpId).runCheck r.id

/-- GRAPH_RUN_BEGIN (R283): an enabled queue with nothing in progress takes the trigger that is next in its work. -/
def execGraphRunBegin (q : Nat) (s : State) : Out :=
  let x := s.queue q
  .next (match x.work with
    | some (gid, ps) :: _ => if x.en && x.current.isNone && x.run.isNone then s.beginRun q gid ps else s
    | _ => s)

/-! ### Pre-bound records (R284) -/

/-- Whether the resources of a record are free on its core (R448). -/
def State.recordFree (s : State) (core e : Nat) (r : BindRecord) (levels : Nat) : Bool :=
  let u := s.useOf core [(e)]
  !(s.core core).fenced && !(s.site (core / 4)).fenced && freeAt u.lev 16 levels r.slotb &&
    freeAt u.scr 16384 r.spsize r.spbase && freeAt u.til 8 r.accn r.abase && !u.seams.contains r.seamset

/-- Whether the block of a PRE record may start. -/
def State.preFree (s : State) (l : Launch) (core e : Nat) : Bool :=
  let r := (s.core core).record e
  let live := (s.residentOf l.id).map (fun c => l.desc.tlSet c.2.blk)
  s.recordFree core e r l.desc.levels && decide (r.blk < l.desc.nblk) && !s.begunBlk l r.blk &&
    !live.contains (l.desc.tlSet r.blk) && s.siteOpen l ⟨l.id, [(r.blk, none)]⟩ (core / 4)

/-- The blocks of a launch's PRE records that may start, each with its quilt (R42, R284). -/
def State.preBlks (s : State) (l : Launch) (ps : List (Nat × Nat)) : List Nat :=
  let bs := (ps.filter (fun x => s.preFree l x.1 x.2)).map (fun x => ((s.core x.1).record x.2).blk)
  bs.filter (fun b => (l.desc.quiltFrom b).all bs.contains)

/-- The record with another launch-table entry. -/
def BindRecord.withLtag (r : BindRecord) (e : Nat) : BindRecord :=
  { r with w0 := BitVec.ofNat 64 (r.w0.toNat / 2 ^ 62 * 2 ^ 62 + e % 64 * 2 ^ 56 + r.w0.toNat % 2 ^ 56) }

/-- A PRE record of a node that begins becomes RUN and starts its block, if it is one of `go`, or returns to FREE. The launch-table
entry that it names then holds the constants with their patches (R287). -/
def State.releasePre (s : State) (l : Launch) (go : List Nat) (core e : Nat) : State :=
  let r := (s.core core).record e
  let s1 := s.modCore core (fun c => { c with records := Sparse.set c.records e (r.withState 0), pre := Sparse.erase c.pre e })
  match s1.ltFor core l.ltBytes with
  | some k =>
    if go.contains r.blk && s.preFree l core e then
      (s1.modCore core (fun c =>
        { (c.setLt k l.ltBytes) with
          records := Sparse.set c.records e ((r.withLtag k).withState 2), placed := Sparse.set c.placed e l.id })).startRecord core e
    else s1
  | none => s1

/-- The graph of a launch's run. -/
def State.graphOf (s : State) (l : Launch) : Option Nat := l.node.bind (fun k => (Sparse.get? s.runs k.1).map (·.gid))

/-- Whether an entry's record was pre-bound for the node of a launch of a graph: by firmware, or, of a record that software wrote, by its
descriptor (log 38). -/
def Core.preFor (c : Core) (l : Launch) (gid : Option Nat) (e : Nat) : Bool :=
  match Sparse.get? c.pre e with
  | some k => k.1 == l.queue && gid == some k.2.1 && l.node.map (·.2) == some k.2.2
  | none => (c.ltBytes (c.record e).ltag).take 128 == l.bytes

/-- The PRE records of a node's launch, by core and entry. -/
def State.preRecords (s : State) (l : Launch) : List (Nat × Nat) :=
  s.cores.flatMap (fun c => (c.2.records.filter (fun r => r.2.state == 1 && c.2.preFor l (s.graphOf l) r.1)).map (fun r => (c.1, r.1)))

/-- A node of a run begins (R283, R284, R444). -/
def State.beginNode (s : State) (run node : Nat) (r : Run) (n : GraphNode) : State :=
  let d := parseDesc n.desc
  let asid := (s.queue r.queue).asid
  let valid := d.formOk (fld n.desc 0 8) && (d.compl == 0 || s.canWrite asid d.compl 16)
  let id := s.nextId
  let s1 : State := { s with runs := Sparse.set s.runs run { r with nodes := r.nodes.set node (.begun id) } }
  let s2 := s1.addLaunch r.queue (some (run, node)) 0 n.desc d n.consts valid
  match s2.launch? id with
  | some l =>
    let ps := s2.preRecords l
    ps.foldl (fun s x => s.releasePre l (s2.preBlks l ps) x.1 x.2) s2
  | none => s2

/-- GRAPH_NODE_BEGIN (R283, R284): when every predecessor of the run has completed with CODE 0x01. -/
def execGraphNodeBegin (run node : Nat) (s : State) : Out :=
  .next (match Sparse.get? s.runs run with
    | none => s
    | some r =>
      let g := Sparse.getD s.graphs r.gid []
      match g[node]? with
      | none => s
      | some n =>
        if r.nodes[node]? = some .waiting ∧ (s.queue r.queue).en = true ∧
            (predsOf g node).all (fun m => r.nodes[m]? == some (.done 1)) = true then s.beginNode run node r n
        else s)

/-! ### Graph upload (R282, R447) -/

/-- The nodes of a graph image. -/
def graphNodes (img : List Byte) (n : Nat) : List GraphNode :=
  (List.range n).map (fun i =>
    let rec_ := (img.drop (16 + 384 * i)).take 384
    let e := 16 + 384 * n + 8 * i
    { desc := rec_.take 128, consts := wordsOf (rec_.drop 128) 64, preds := fld img e 2
      succs := (List.range (fld img (e + 2) 2)).map (fun j => fld img (fld img (e + 4) 4 + 2 * j) 2) })

/-- Takes away the nodes without a predecessor among the rest, `fuel` times; what is left lies on or behind a cycle. -/
def onCycle (g : List GraphNode) : Nat → List Nat → List Nat
  | 0, l => l
  | fuel + 1, l =>
    let heads := l.filter (fun i => match g[i]? with
      | some x => x.succs.any l.contains
      | none => false)
    if heads.length = l.length then l else onCycle g fuel heads

/-- The first check of R447 that an image fails, with the node. -/
def State.graphFault (s : State) (gid : Nat) (img : List Byte) : Option (Nat × Nat) :=
  let n := fld img 0 2
  if n = 0 ∨ n > 4096 ∨ ((img.drop 2).take 14).any (· != 0) = true then some (1, 0)
  else
    let g := graphNodes img n
    let idx := List.range n
    let at_ (p : Nat → GraphNode → Bool) : Option Nat := idx.find? (fun i => match g[i]? with | some x => p i x | none => false)
    let others := ((s.graphs.filter (fun c => c.1 != gid)).map (fun c => c.2.length)).sum
    match at_ (fun _ x => x.succs.any (fun j => decide (j ≥ n)) || !decide x.succs.Nodup),
        at_ (fun i x => x.preds != (predsOf g i).length) with
    | some i, _ => some (2, i)
    | none, some i => some (3, i)
    | none, none =>
      match onCycle g n idx with
      | i :: _ => some (4, i)
      | [] =>
        match at_ (fun _ x => !({ parseDesc x.desc with compl := 0 } : Desc).formOk (fld x.desc 0 8)) with
        | some i => some (5, i)
        | none =>
          if others + n > 32768 then some (6, 0)
          else if s.queues.any (fun q => q.2.gid == gid && (q.2.run.isSome || q.2.npend != 0)) then some (7, 0)
          else none

/-- GRAPH_UPLOAD (R447): relayed to site 0's controller where the port's edge die reaches it (R16, R311; log 56), the image is stored, and pre-bound anew where its id is bound (log 38), or the first failing check and its
node are answered. -/
def execGraphUpload (port gid : Nat) (image : List Byte) (s : State) : Out :=
  .next (if s.cutOff (edgeSite (controlDie port)) 0 then s.emit (.report "refused" [port, gid, 7]) else match s.graphFault gid image with
    | some (k, i) => s.emit (.report "graph refused" [port, gid, k, i])
    | none =>
      let s1 : State := { s with graphs := Sparse.set s.graphs gid (graphNodes image (fld image 0 2)) }
      (s.queues.filter (fun q => q.2.gid == gid)).foldl (fun s q => s.preBind q.1 gid) s1)

/-! ### Dispatch (R288 to R290) -/

/-- The placement table takes in the pieces that a placement asked for (R54). -/
def State.fillPlacement (s : State) (asid : Nat) (ps : List Nat) : State := ps.foldl (fun s p => (s.placementHome asid p).2) s

/-- The scheduler places a unit (R286, R288): bind records for every member, whose blocks start. -/
def State.dispatchUnit (s : State) (l : Launch) (u : WorkUnit) (cs : List Choice) : State :=
  let ps : List (Nat × Nat) := (List.range l.desc.quilt).map (fun j =>
    match (u.blks.zip cs).find? (fun x => x.1.1 % l.desc.quilt == j) with
    | some x => (x.2.core, x.2.entry)
    | none => (0, 0))
  let first := match u.blks.head? with | some x => x.1 | none => 0
  let fresh := match u.blks.head? with | some x => x.2.isNone | none => false
  let s1 := s.fillPlacement l.asid (u.blks.flatMap (fun x => l.desc.pieces x.1))
  let s2 := s1.modLaunch l.id (fun l =>
    if !fresh then l else if l.redo.contains first then { l with redo := l.redo.filter (· != first) }
    else if s.firstFresh l = first then { l with next := first + l.desc.quilt } else l)
  let s3 := (u.blks.zip cs).foldl (fun s x => s.bindOne l x.1.1 (x.1.1 % l.desc.quilt) x.2 ps x.1.2) s2
  let s4 : State := { s3 with sites := Sparse.mapVals s3.sites (fun _ x => match x.reservation with
    | some r => if r.launch = l.id ∧ r.quilt = first / l.desc.quilt then { x with reservation := none } else x
    | none => x) }
  { s4 with
    turns := Sparse.set s4.turns (s.queue l.queue).prio l.queue
    migrations := s4.migrations.filter (fun m => !(m.1 == l.id && u.blks.any (fun x => x.1 == m.2.1)))
    quiltSince := Sparse.erase s4.quiltSince (l.id * 2 ^ 32 + first / l.desc.quilt) }

/-- BLOCK_DISPATCH (R288): the unit whose turn it is, at the places that firmware chose on the site and cores of R289 and R290;
with none given, the lowest free ones. -/
def execBlockDispatch (launch : Nat) (places : List Choice) (s : State) : Out :=
  .next (match s.nextWork with
    | some (l, u, site) =>
      if l.id = launch then
        match s.fitSite l u [] places site with
        | some cs => s.dispatchUnit l u cs
        | none => s
      else s
    | none => s)

/-- A write of word 0 of a bind record (R286, R448). -/
def State.bindWrite (s : State) (core e : Nat) (v : DWord) : State :=
  let c := s.core core
  let r : BindRecord := { c.record e with w0 := v }
  let bad : State := s.modCore core (fun c => { c with badBinds := c.badBinds + 1 })
  if r.state = 0 then
    (if (s.block? (bkOf core e)).isSome then bad else s.modCore core (fun c => { c with records := Sparse.set c.records e r }))
  else
    let d := c.ltDesc r.ltag
    let ok := r.state != 3 && c.ltvalid.getLsbD r.ltag && decide (r.slotb + d.levels ≤ 16) &&
      decide (r.abase + r.accn ≤ 8) && decide (r.spbase + r.spsize ≤ 16384) && !r.reservedSet &&
      (s.block? (bkOf core e)).isNone && (r.state != 2 || s.recordFree core e r d.levels)
    if !ok then bad
    else
      (s.modCore core (fun c =>
        { c with records := Sparse.set c.records e r, placed := Sparse.erase c.placed e, pre := Sparse.erase c.pre e })).startRecord core e
/-- BIND_RECORD_WRITE (R286, R448). -/
def execBindRecordWrite (core entry : Nat) (v : DWord) (s : State) : Out := .next (s.bindWrite core (entry % 64) v)

/-! ### The ends of blocks and launches (R41, R281, R356) -/

/-- With the last member of a quilt firmware logs the quilt's orphan writes (R400). -/
def State.logOrphans (s : State) (b : Block) : State :=
  if b.orphans = 0 ∨ s.quiltOf b ≠ [] ∨ (s.savedOf b.launch).any (fun x => x.block.blk / b.desc.quilt == b.blk / b.desc.quilt) = true then s
  else { s with logs := Sparse.modify s.logs 6 0 (· + b.orphans) }
/-- A block whose threads have all exited and whose work is complete ends; its held graph commands are discarded (R434). -/
def State.endBlock (s : State) (bk : Nat) (b : Block) : State :=
  (((s.removeBlock bk b).clearPresence b).logOrphans b).modLaunch b.launch (fun l => { l with ended := l.ended ++ [b.blk] })

/-- BLOCK_END (R41, R286, R356, R442). -/
def execBlockEnd (core bslot : Nat) (s : State) : Out :=
  let bk := bkOf core bslot
  .next (match s.block? bk with
    | none => s
    | some b =>
      if b.doubleFault then
        (if s.stopReady bk b then
          ((((s.emitHalts bk b 2).discardBlock bk b).clearPresence b).logOrphans b).modLaunch b.launch (fun l =>
            { l with lost := l.lost + 1, lostBlks := l.lostBlks ++ [b.blk], doubleFault := true })
        else s)
      else if b.discard then (if s.stopReady bk b then s.discardBlock bk b else s)
      else if s.endReady bk b then s.endBlock bk b
      else s)

/-- Whether a launch is over (R281, R440). -/
def State.launchDone (s : State) (l : Launch) : Bool :=
  decide (l.ended.length + l.lost ≥ l.desc.nblk) && l.redo == [] && s.residentOf l.id == [] && s.savedOf l.id == []
/-- LAUNCH_COMPLETE (R281, R440). -/
def execLaunchComplete (id : Nat) (s : State) : Out :=
  .next (match s.launch? id with
    | some l => if s.launchDone l then s.endLaunch l else s
    | none => s)

/-! ### Saving (R292, R414, R442) -/

/-- CONTEXT_SAVE_COMPLETE (R292): the context of a stopped block is in memory. A save that fails is begun again elsewhere (R414); an image
that no core can restore loses its block (R414, R426, R442). -/
def execContextSaveComplete (core bslot : Nat) (ok : Bool) (s : State) : Out :=
  let bk := bkOf core bslot
  .next (match s.block? bk with
    | none => s
    | some b =>
      if !b.stopping || b.halted || b.discard || b.doubleFault || !s.stopReady bk b then s
      else if !ok then { s with badAreas := s.badAreas ++ [s.nextCtx] }
      else
        let ctx := s.nextCtx
        let s1 := s.saveBlock bk b
        match s1.saved.find? (fun x => x.ctx == ctx) with
        | some x =>
          if x.broken || (match x.bound with | some c => (s1.core c).fenced | none => false) then
            s1.loseUnit b.launch b.blk
          else s1
        | none => s1)

/-! ### Quanta (R291) -/

/-- The groups of a queue's blocks on a site that may be pre-empted, youngest first: each the members of one quilt. -/
def State.groupsOn (s : State) (site : Nat) (p : Block → Bool) : List (List (Nat × Block)) :=
  let bs := s.blocks.filter (fun c => c.2.core / 4 == site && p c.2)
  let keys := (bs.map (fun c => (c.2.launch, c.2.blk / c.2.desc.quilt))).eraseDups
  let gs := keys.map (fun k =>
    s.blocks.filter (fun c => c.2.launch == k.1 && c.2.blk / c.2.desc.quilt == k.2))
  let age (g : List (Nat × Block)) : Nat := (g.map (fun c => c.2.born)).foldl max 0
  sortBy (fun a b => decide (age b ≤ age a)) (gs.filter (fun g => g.all (fun c => !c.2.stopping && !c.2.discard && !c.2.doubleFault)))

/-- The fewest of the youngest groups whose room lets a unit onto a site, with what is already being given up. -/
def State.takeGroups (s : State) (l : Launch) (u : WorkUnit) (site : Nat) (gone : List (Nat × Nat)) :
    List (List (Nat × Block)) → Option (List (List (Nat × Block)))
  | [] => if (s.fitSite l u gone [] site).isSome then some [] else none
  | g :: r =>
    if (s.fitSite l u gone [] site).isSome then some []
    else (s.takeGroups l u site (gone ++ g.map (fun c => (c.2.core, c.2.bslot))) r).map (g :: ·)

/-- The entries of a site whose blocks are being given up. -/
def State.givenUp (s : State) (site : Nat) : List (Nat × Nat) :=
  (s.blocks.filter (fun c => c.2.core / 4 == site && (c.2.stopping || c.2.doubleFault))).map (fun c => (c.2.core, c.2.bslot))

/-- The first unit of other queues of equal or higher priority that has no room (R291). -/
def State.waitingFor (s : State) (q : Nat) : Option (Launch × WorkUnit) :=
  let p := (s.queue q).prio
  let qs := sortBy (fun a b => decide ((s.queue b).prio < (s.queue a).prio) ||
      ((s.queue a).prio == (s.queue b).prio && decide (a ≤ b)))
    (s.busyQueues.filter (fun k => k != q && (s.queue k).en && decide ((s.queue k).prio ≥ p)))
  qs.findSome? (fun k => (s.launchesOf k).findSome? (fun l =>
    (s.units l).findSome? (fun u => if (s.siteFor l u).isSome then none else some (l, u))))

/-- QUANTUM_EXPIRY (R291): the quantum begins again, and room is made for waiting work on the site where it would go. -/
def execQuantumExpiry (q : Nat) (s : State) : Out :=
  let x := s.queue q
  .next (match x.quantum with
    | none => s
    | some d =>
      if s.clk < d then s
      else
        let s1 := s.setQueue q { x with quantum := some (s.clk + usCycles x.quant) }
        match s1.waitingFor q with
        | none => s1
        | some (l, u) =>
          match (s1.siteOrder l u).head? with
          | none => s1
          | some site =>
            let mine (b : Block) : Bool := match s1.launch? b.launch with | some k => k.queue == q | none => false
            match s1.takeGroups l u site (s1.givenUp site) (s1.groupsOn site mine) with
            | some gs => gs.foldl (fun s g => match g.head? with | some c => s.preempt c.2 | none => s) s1
            | none => s1)

/-! ### Moving blocks (R295, R450, R451) -/

/-- Whether the image of a block would carry no MMA or RSFILL entry (R295). -/
def State.mayCarry (s : State) (bk : Nat) (b : Block) : Bool :=
  ((s.core b.core).mxq ++ b.savedEntries).all (fun e => tkBk e.tk != bk || e.isAcc)
/-- Whether R295 lets a block move: no launch affinity, no MMA or RSFILL entry in its image. -/
def State.movable (s : State) (bk : Nat) (b : Block) : Bool :=
  !b.desc.affinity && !b.stopping && b.pause.isNone && !b.halted && s.mayCarry bk b

/-- Pre-empts a quilt that may move, at once or when its copies are complete (R295, R450). -/
def State.moveQuilt (s : State) (g : List (Nat × Block)) : State :=
  if g.any (fun c => s.copiesOf c.1 c.2) then
    g.foldl (fun s c => s.modBlock c.1 (fun b => { b with pause := some (s.clk + usCycles s.drainMax) })) s
  else match g.head? with
  | some c => s.preempt c.2
  | none => s

/-- A block is skipped with its quilt, and its migration is off (R450, R451). -/
def State.skipMove (s : State) (b : Block) : State :=
  let s1 := (s.quiltOf b).foldl (fun s k => s.modBlock k (fun b => { b with pause := none, skippedAt := some s.clk })) s
  { s1 with migrations := s1.migrations.filter (fun m => !(m.1 == b.launch && m.2.1 / b.desc.quilt == b.blk / b.desc.quilt)) }

/-- Firmware stops a block whose copies have drained, in the cycle in which they have (R450), unless its image would now carry an MMA
or RSFILL entry (R295). -/
def State.stopDrained (s : State) : State :=
  (s.blocks.filter (fun c => c.2.pause.isSome)).foldl (fun s c =>
    let g := (s.quiltOf c.2).filterMap (fun k => (s.block? k).map (fun b => (k, b)))
    if g.all (fun x => x.2.pause.isSome && !s.copiesOf x.1 x.2) then
      (if g.all (fun x => s.mayCarry x.1 x.2) then s.preempt c.2 else s.skipMove c.2)
    else s) s

/-- DRAINMAX_EXPIRY (R450): a block whose copies have not completed is skipped, its quilt with it, and its migration is off. -/
def execDrainmaxExpiry (core bslot : Nat) (s : State) : Out :=
  .next (match s.block? (bkOf core bslot) with
    | none => s
    | some b =>
      match b.pause with
      | some d =>
        if s.clk < d then s
        else s.skipMove b
      | none => s)

/-- A migration that the governor asks for (R295, R451): core, block slot and site. A block that R295 does not let move is skipped. -/
def State.migrate (s : State) (m : Nat × Nat × Nat) : State :=
  match s.block? (bkOf m.1 m.2.1) with
  | none => s
  | some b =>
    let g := (s.quiltOf b).filterMap (fun k => (s.block? k).map (fun x => (k, x)))
    let recent (x : Block) : Bool := match x.skippedAt with | some t => decide (s.clk < t + usCycles 1000) | none => false
    if g.all (fun x => s.movable x.1 x.2 && !recent x.2) then
      let s1 : State := { s with migrations := s.migrations ++ g.map (fun (x : Nat × Block) => (x.2.launch, x.2.blk, m.2.2 % 16)) }
      s1.moveQuilt g
    else if g.any (fun x => recent x.2) then s
    else g.foldl (fun s x => s.modBlock x.1 (fun b => { b with skippedAt := some s.clk })) s

/-! ### Quilts that cannot be placed (R449) -/

/-- The quilts that no site has room for, while their queue's priority is the highest with eligible work. -/
def State.unplacedQuilts (s : State) : List (Nat × Nat) :=
  if s.launches.all (fun l => decide (l.2.desc.quilt < 2)) then []
  else
    let ws := s.busyQueues.flatMap (fun q =>
      if !(s.queue q).en then []
      else (s.launchesOf q).flatMap (fun l => (s.units l).map (fun u => ((s.queue q).prio, l, u))))
    let top := (ws.map (fun w => w.1)).foldl max 0
    (ws.filter (fun w => w.1 == top && decide (w.2.1.desc.quilt ≥ 2) && (s.siteFor w.2.1 w.2.2).isNone)).filterMap (fun w =>
      w.2.2.blks.head?.map (fun b => (w.2.1.id, b.1 / w.2.1.desc.quilt)))

/-- Keeps for how long each quilt has been unplaceable. -/
def State.trackQuilts (s : State) : State :=
  let us := s.unplacedQuilts.map (fun x => x.1 * 2 ^ 32 + x.2)
  if us = [] ∧ s.quiltSince = [] then s
  else
    let keep := s.quiltSince.filter (fun c => us.contains c.1)
    { s with quiltSince := us.foldl (fun m k => match Sparse.get? m k with
        | some _ => m
        | none => Sparse.set m k s.clk) keep }

/-- The unit of a quilt, if it waits. -/
def State.quiltUnit (s : State) (launch quilt : Nat) : Option (Launch × WorkUnit) :=
  (s.launch? launch).bind (fun l => ((s.units l).find? (fun u =>
    u.blks.head?.map (fun b => b.1 / l.desc.quilt) == some quilt)).map (fun u => (l, u)))

/-- PRE records of other launches on a site return to FREE. -/
def State.freePre (s : State) (site : Nat) (l : Launch) : State :=
  (List.range 4).foldl (fun s i =>
    s.modCore (site * 4 + i) (fun c =>
      let gone (e : Nat) : Bool := (c.record e).state == 1 && !c.preFor l (s.graphOf l) e
      { c with
        records := Sparse.mapVals c.records (fun e r => if gone e then r.withState 0 else r)
        pre := c.pre.filter (fun k => !gone k.1) })) s

/-- QUILT_RESERVATION (R449): after 200 µs a quilt reserves its target site, if no other holds it. -/
def execQuiltReservation (site launch quilt : Nat) (s : State) : Out :=
  .next (match s.quiltUnit launch quilt, Sparse.get? s.quiltSince (launch * 2 ^ 32 + quilt) with
    | some (l, u), some since =>
      if s.clk ≥ since + usCycles 200 ∧ (s.siteOrder l u).head? = some site ∧ (s.site site).reservation = none then
        (s.modSite site (fun x => { x with reservation := some ⟨launch, quilt, s.clk, false, false⟩ })).freePre site l
      else s
    | _, _ => s)

/-- RESERVATION_CLEARING (R449): one long-lived movable block of the site, the youngest, is pre-empted; with none left the
quilt is reported. -/
def execReservationClearing (site : Nat) (s : State) : Out :=
  .next (match (s.site site).reservation with
    | none => s
    | some r =>
      match s.quiltUnit r.launch r.quilt with
      | none => s
      | some (l, u) =>
        let busy := s.blocks.any (fun c => c.2.core / 4 == site && (c.2.stopping || c.2.pause.isSome))
        if s.clk < r.since + usCycles 2000 ∨ busy = true ∨ (s.fitSite l u [] [] site).isSome = true then s
        else
          let s1 := s.modSite site (fun x => { x with reservation := some { r with clearing := true } })
          let gs := (s1.groupsOn site (fun _ => true)).filter (fun g =>
            g.all (fun c => s1.movable c.1 c.2 && decide (s1.clk ≥ c.2.since + usCycles 1000) &&
              (match c.2.skippedAt with | some t => decide (s1.clk ≥ t + usCycles 1000) | none => true)))
          match gs with
          | g :: _ => s1.moveQuilt g
          | [] =>
            if r.reported then s1
            else (s1.modSite site (fun x => { x with reservation := some { r with clearing := true, reported := true } })).emit
              (.report "quilt cannot be placed" [r.launch, r.quilt, site]))

end Sys2Proof.Machine
end

