-- ==== Sys2Proof/Machine/DevRegs.lean ====
section
/-!
DEFINITION. Device-register space (R47, R64, R104, R466): frame mode tables (R55, R62, R338, R412), queue registers, slot and
launch tables, the governor's registers (R309, R454), MEASURE (R319) and the inbound filter (R315), as threads, firmware, the
control node and other devices reach them.
-/
namespace Sys2Proof.Machine

/-- Who accesses a device register: privileged code, another thread or another device, firmware, or the control node. -/
inductive Agent where
  | thread | user | firmware | node
  deriving DecidableEq, Repr

/-- Whether an agent's write to an offset of a site's block takes effect (R55, R276, R285, R287, R315): frame modes, slot and launch
tables and LTVALID are written by firmware and privileged code alone, queue registers by these and the control node, the
inbound filter by firmware and the control node (log 46). -/
def Agent.mayWrite (who : Agent) (site ofs : Nat) : Bool :=
  if 0x200000 ≤ ofs ∧ ofs < 0x208000 then who != .user
  else if 0x600000 ≤ ofs ∧ ofs < 0x602000 then decide (site = 0) && (who == .firmware || who == .node)
  else who == .firmware || who == .thread

/-! ### Frame modes (R55, R62, R338, R412) -/

/-- Whether a frame-mode nibble is reserved. -/
def modeReserved (x : Nat) : Bool := decide (x / 4 ≥ 2) || (decide (x / 4 = 0) && decide (x % 4 ≥ 2))

/-- The nibbles that a store of bytes to the table changes: frame, old and new value. -/
def modeChanges (x : Site) (index : Nat) (bs : List Byte) : List (Nat × Nat × Nat) :=
  (bs.zipIdx.flatMap (fun b => [(2 * (index + b.2), b.1.toNat % 16), (2 * (index + b.2) + 1, b.1.toNat / 16)])).filterMap (fun c =>
    let old := (Sparse.getD x.modes c.1 0).toNat
    if modeReserved c.2 || old == c.2 then none else some (c.1, old, c.2))

/-- The contents of a quad become unspecified: its lines go without write-back (R62). -/
def State.voidQuad (s : State) (site F : Nat) : State :=
  let q := paOf s.devno 0 site (F / 4 * 2 ^ 23) / 2 ^ 23
  { s with
    quads := Sparse.modify s.quads q 0 (· + 1)
    mem := s.mem.filter (fun c => c.1 / 2 ^ 23 != q)
    poison := s.poison.filter (fun c => c.1 * 16 / 2 ^ 23 != q)
    lines := s.lines.filter (fun c => c.1 * 128 / 2 ^ 23 != q) }

/-- A store of bytes to the frame mode table of a site (R338). -/
def State.frameStore (s : State) (site index : Nat) (bs : List Byte) : State :=
  let ch := modeChanges (s.site site) index bs
  if ch = [] then s
  else
    let s1 := s.modSite site (fun x =>
      { x with
        modes := ch.foldl (fun m c =>
          if c.2.2 = 0 then Sparse.erase m c.1 else Sparse.set m c.1 (BitVec.ofNat 4 c.2.2)) x.modes
        gen0 := (x.gen0 + 1) % 2 ^ 16, gen1 := (x.gen1 + 1) % 2 ^ 16 })
    ch.foldl (fun s c =>
      if c.2.1 / 4 = 0 ∧ c.2.2 / 4 = 0 then s.moveLines site (fun pa => frameOf (paOfs pa) == c.1)
      else s.voidQuad site c.1) s1
/-- FRAME_MODE_WRITE (R338, R412). -/
def execFrameModeWrite (site index : Nat) (v : Byte) (s : State) : Out :=
  .next (s.frameStore (site % 16) (index % 16384) [v])

/-! ### Writes -/

/-- One whole 8-byte register is written (R466). -/
def State.devSet (s : State) (who : Agent) (site ofs : Nat) (v : DWord) : State :=
  if !who.mayWrite site ofs then s
  else if 0x200000 ≤ ofs ∧ ofs < 0x208000 then
    let q := site * 512 + (ofs - 0x200000) / 64
    let out : Out := match ofs / 8 % 8 with
      | 0 => execQcfgWrite q v s
      | 1 => execQringWrite q v s
      | 2 => execQtailWrite q v s
      | 4 => execQtrigWrite q v s
      | 5 => execQgraphWrite q (who == .firmware) v s
      | _ => .next s
    match out with | .next t => t | _ => s
  else if 0x300000 ≤ ofs ∧ ofs < 0x302000 then
    let core := site * 4 + (ofs - 0x300000) / 0x800
    let e := ofs / 32 % 64
    match ofs / 8 % 4 with
    | 0 => s.bindWrite core e v
    | k => s.modCore core (fun c =>
        let r := c.record e
        let r1 : BindRecord := match k with
          | 1 => { r with w1 := v }
          | 2 => { r with w2 := v }
          | _ => { r with w3 := v }
        { c with records := Sparse.set c.records e r1 })
  else if 0x330000 ≤ ofs ∧ ofs < 0x330020 then
    s.modCore (site * 4 + (ofs - 0x330000) / 8) (fun c => { c with ltvalid := v })
  else if 0x340000 ≤ ofs ∧ ofs < 0x358000 then
    let o := (ofs - 0x340000) % 0x6000
    s.modCore (site * 4 + (ofs - 0x340000) / 0x6000) (fun c =>
      let bs := c.ltBytes (o / 384)
      let bs1 := bs.take (o % 384) ++ leBytes 8 v.toNat ++ bs.drop (o % 384 + 8)
      { c with launches := Sparse.set c.launches (o / 384) bs1 })
  else if 0x600000 ≤ ofs ∧ ofs < 0x602000 then
    { s with filter := Sparse.set s.filter ((ofs - 0x600000) / 8) (v.toNat % 8) }
  else s

/-- Bytes within one 8-byte register are written: the others keep their value (R466). -/
def State.devSetPart (s : State) (who : Agent) (site ofs : Nat) (bs : List Byte) : State :=
  if 0x100000 ≤ ofs ∧ ofs < 0x104000 then
    (if who.mayWrite site ofs then s.frameStore site (ofs - 0x100000) bs else s)
  else
    let old := leBytes 8 (s.devWord site (ofs / 8 * 8))
    let new := old.take (ofs % 8) ++ bs ++ old.drop (ofs % 8 + bs.length)
    s.devSet who site (ofs / 8 * 8) (BitVec.ofNat 64 (leNat new))

/-- A store of bytes to device registers of this device (R466): 16 bytes act as two accesses of 8. -/
def State.devWrite (s : State) (who : Agent) (pa : Nat) (bs : List Byte) : State :=
  if bs.length ≤ 8 then s.devSetPart who (paSite pa) (paOfs pa) bs
  else (s.devSetPart who (paSite pa) (paOfs pa) (bs.take 8)).devSetPart who (paSite pa) (paOfs pa + 8) (bs.drop 8)

/-- DEVICE_REGISTER_WRITE (R466): by firmware or by privileged code. -/
def execDeviceRegisterWrite (firmware : Bool) (pa : Nat) (bytes : List Byte) (s : State) : Out :=
  .next (s.devWrite (if firmware then .firmware else .thread) pa (bytes.take 16))
/-- What keeps a control port's access from a register (R311, R408): 5 for an address that is none of this device's registers, 7
for a site that the port's edge die cannot reach (log 56). -/
def State.controlBar (s : State) (port pa : Nat) : Option Nat :=
  if paSpace pa ≠ 1 ∨ paDev pa ≠ s.devno then some 5
  else if s.cutOff (edgeSite (controlDie port)) (paSite pa) then some 7 else none

/-- CONTROL_PORT_REGISTER_WRITE (R311): a device-type store of 8 bytes, answered when it is performed (R312). -/
def execControlPortRegisterWrite (port pa : Nat) (v : DWord) (s : State) : Out :=
  .next (match s.controlBar port pa with
    | some k => s.emit (.report "refused" [port, pa, k])
    | none => (s.devWrite .node (pa / 8 * 8) (leBytes 8 v.toNat)).emit (.reply port 0))
/-- CONTROL_PORT_REGISTER_READ (R311): a device-type load of 8 bytes. -/
def execControlPortRegisterRead (port pa : Nat) (s : State) : Out :=
  .next (match s.controlBar port pa with
    | some k => s.emit (.report "refused" [port, pa, k])
    | none => s.emit (.reply port (s.devWord (paSite pa) (paOfs pa / 8 * 8))))

/-! ### Accesses of threads (R104, R315) -/

/-- A thread's store to a doorbell of a queue pair tells the site controllers, which serve it next (R316, R317): where the doorbells
lie among the offsets that hold no register is a free value (log 28). -/
def State.ring (s : State) (pa : Nat) (bs : List Byte) : State :=
  match (if paOfs pa < 0x700000 then none else Config.doorbell pa) with
  | some qp => s.emit (.report "doorbell" [qp, leNat bs])
  | none => s

/-- A device-type access of a thread is performed. What another device's registers hold, and whether its filter lets the access pass,
are free values (R315, log 21). -/
def State.performDev (s : State) (r : Req) (pa : Nat) : State :=
  let cut := s.unreachable (tkCore r.tk / 4) pa
  let own := paDev pa == s.devno
  match r.act with
  | .load n =>
    match cut with
    | some o => (s.give r (List.replicate n 0) (some o)).finish r
    | none =>
      if own then (s.give r (s.devRead pa n) none).finish r
      else if s.refusedThere r pa then (s.give r (List.replicate n 0) (some 5)).finish r
      else (s.give r ((List.range n).map (fun i => Config.remoteByte r.id (pa + i))) none).finish r
  | .store bs =>
    if cut.isSome then s.finish r
    else if own then ((s.devWrite (if r.priv then .thread else .user) pa bs).ring pa bs).finish r
    else if s.refusedThere r pa then (s.reportRefused r).finish r
    else s.finish r
  | .refill _ =>
    match cut with
    | some o => s.badRefill r pa o
    | none => if own then (s.give r (s.devRead pa 8) none).finish r else s.badRefill r pa 5
  | _ => s.finish r

/-- An access is performed by the unit that answers it. -/
def State.performAt (s : State) (r : Req) : State :=
  match r.place with | .dev pa => s.performDev r pa | .dram _ _ => s.performHome r | .scr _ => s.performScr r

/-- HOME_SLICE_REQUEST (R60, R63, R104): the request goes one stage further, or is performed. -/
def execHomeSliceRequest (id : Nat) (s : State) : Out := .next (s.goOn id (State.nextStage State.performAt))

end Sys2Proof.Machine
end

