-- ==== Sys2Proof/Machine/Events.lean ====
section
/-!
DEFINITION. The steps in which accesses, walks, windows, branches, matrix entries and reports that are on their way take
effect, and the wait probes (R365 to R367).
-/
namespace Sys2Proof.Machine

/-- SCRATCHPAD_PEER_ACCESS (R69). -/
def execScratchpadPeerAccess (id : Nat) (s : State) : Out := .next (s.peerAccess id)
/-- GEN_RETRY (R60). -/
def execGenRetry (id : Nat) (s : State) : Out := .next (s.genRetry id)
/-- WALK_COMPLETE (R52). -/
def execWalkComplete (id : Nat) (s : State) : Out := .next (s.completeWalk id)
/-- LONG_LATENCY_RESULT (R31). -/
def execLongLatencyResult (tk pend reg : Nat) (s : State) : Out := .next (s.land tk pend reg)
/-- STORE_ACKNOWLEDGE (R202). -/
def execStoreAcknowledge (id : Nat) (s : State) : Out := .next (s.acknowledge id)
/-- BRANCH_RESOLUTION (R35). -/
def execBranchResolution (id : Nat) (s : State) : Out := .next (s.resolve id)
/-- SLEEP_WAKE (R192): %clk has reached the thread's deadline. -/
def execSleepWake (tk : Nat) (s : State) : Out :=
  .next (s.modThread tk (fun t => if t.wait = .sleep ∧ t.sleepAt ≤ s.clk then { t with wait := .none } else t))
/-- DEFERRED_REPORT (R401). -/
def execDeferredReport (tk cause tval tinfo : Nat) (s : State) : Out := .next (s.report tk ⟨cause, tval, tinfo⟩)
/-- ASID_TEARDOWN (R249). -/
def execAsidTeardown (asid : Nat) (s : State) : Out := .next (s.teardown asid)

/-! ### The matrix unit's steps -/

/-- MMA_START (R246). -/
def execMmaStart (core : Nat) (s : State) : Out := .next (s.mmaStart core)
/-- MMA_K_STEP (R251, R424): a step waits for an earlier fill of its slots (R240); one whose residue fails is computed again,
and a third failure fences the matrix unit. -/
def execMmaKStep (core : Nat) (residueOk : Bool) (s : State) : Out :=
  .next (match s.onArray core with
    | none => s
    | some (e, b, r) =>
      if !e.stepping then s.stepBegin core b e r
      else if residueOk then s.kStepDone core b e r
      else if e.retries ≥ 2 then (s.log 2).fenceMatrix core
      else
        let cyc := kCycles e.rows ((s.core core).stepWide e r) (s.applied (core / 4) = 6)
        (s.log 2).modEntry core e.id (fun x => { x with retries := x.retries + 1, due := s.now core + cyc }))
/-- RSFILL_COMPLETE (R243). -/
def execRsfillComplete (core id : Nat) (s : State) : Out := .next (s.fillDone core id)
/-- ACCUMULATOR_ENTRY_COMPLETE (R253). -/
def execAccumulatorEntryComplete (core id : Nat) (s : State) : Out := .next (s.accDone core id)

/-! ### Wait cycles (R365 to R367) -/

/-- The phase on which a thread is blocked: at BAR, or in a collective whose window has closed, must close for a trap,
or whose flags an arrival waits for (R168). -/
def Thread.barred (t : Thread) : Option FlagHome :=
  match t.wait with
  | .bar tr k => some (if tr then .trap k else .skein k)
  | .none | .window | .closing | .flags => t.pends.findSome? (fun p =>
      match p.kind with
      | .coll tr k => if (p.left = 0 ∨ t.wait = .closing ∨ (t.wait = .flags ∧ p.raises)) ∧ !p.ready then some (if tr then .trap k else .skein k) else none
      | _ => none)
  | _ => none

/-- Live threads of a block that satisfy a test, as parties. -/
def State.liveThreads (s : State) (bk : Nat) (p : Thread → Bool) : List Party :=
  (s.threadsOf bk).filterMap (fun c => if !c.2.exited && p c.2 then some (.thread c.1) else none)

/-- The commands held at nodes of a block that satisfy a test, as parties. -/
def Block.heldAt (b : Block) (bk : Nat) (p : Cmd → Bool) : List Party :=
  b.nodes.filterMap (fun n => match n.2.held with
    | some c => if p c then some (.node bk n.1) else none
    | none => none)

/-- Every command of the package that is queued or running. -/
def State.activeCmds (s : State) : List Cmd :=
  s.cores.flatMap (fun c => c.2.queues.flatMap (·.2)) ++ s.runnings.map (·.cmd) ++ s.blocks.flatMap (fun b => b.2.savedCmds)

/-- The enablers of a blocked party (Table 21.9); none for a party that is not blocked, or that something under way may free. -/
def State.enablers (s : State) : Party → Option (List Party)
  | .thread tk =>
    match s.thread? tk, s.block? (tkBk tk) with
    | some t, some b =>
      if t.exited || b.stopping then none
      else match t.barred with
      | some h => some ((b.phaseOf h).waiting.map (fun i => .thread (tkBk tk * 4096 + i)))
      | none =>
        match t.wait with
        | .bwait core _ o _ _ =>
          if s.activeCmds.any (fun c => s.barAt c == some (core, o)) then none
          else
            let ks := match (s.blocks.find? (fun d => d.2.core == core && decide (d.2.spbase ≤ o ∧ o < d.2.spbase + d.2.spsize))) with
              | some d => s.quiltOf d.2
              | none => []
            some (s.blocks.flatMap (fun d => d.2.heldAt d.1 (fun c => s.barAt c == some (core, o))) ++
              ks.flatMap (fun k => s.liveThreads k (fun u => match u.wait with
                | .bwait c2 _ o2 _ _ => !(c2 == core && o2 == o)
                | _ => true)))
        | .seam n _ =>
          if b.savedEntries.any (fun e => e.op == .mma && e.seam == n) then none
          else some ((s.core b.core).mxq.filterMap (fun e =>
            if e.op == .mma && e.seam == n && tkBk e.tk == tkBk tk then some (.entry b.core e.id) else none))
        | .matrixRoom _ =>
          if s.acqOpen tk then none else some ((s.core b.core).mxq.map (fun e => .entry b.core e.id))
        | _ => none
    | _, _ => none
  | .entry core id =>
    match (s.core core).mxq.find? (fun e => e.id == id) with
    | some e =>
      if e.op == .mma && !e.started && !s.seamOk e then
        some (s.liveThreads (tkBk e.tk) (fun u => match u.wait with | .seam n _ => n != e.seam | _ => true))
      else none
    | none => none
  | .node bk n =>
    match s.block? bk with
    | some b =>
      let names (c : Cmd) : Bool := tkBk c.tk == bk && (match c.succ with | some m => m | none => s.readMask c b).getLsbD n
      let x := b.node n
      if x.held.isNone || decide (x.count ≤ 0) || s.activeCmds.any names then none else some (b.heldAt bk names)
    | none => none

/-- The parties reached from a list; none if one of them is not blocked. -/
def State.closure (s : State) : Nat → List Party → List Party → Option (List Party)
  | 0, _, _ => none
  | _ + 1, seen, [] => some seen
  | fuel + 1, seen, p :: r =>
    if seen.contains p then s.closure fuel seen r
    else match s.enablers p with
    | none => none
    | some es => s.closure fuel (seen ++ [p]) (r ++ es.filter (fun e => !seen.contains e))

/-- TVAL of cause 0x16 (Table 21.6). -/
def State.waitVal (s : State) (tk : Nat) (t : Thread) : Nat :=
  match t.barred with
  | some (.skein k) => k * 2 ^ 56
  | some (.trap n) => 4 * 2 ^ 60 + (match s.block? (tkBk tk) with | some b => b.trapTag n | none => 0) * 2 ^ 32
  | none =>
    match t.wait with
    | .bwait core bslot _ _ ea => 1 * 2 ^ 60 + (match s.block? (bkOf core bslot) with | some d => d.bslot | none => bslot) * 2 ^ 48 + ea
    | .seam n _ => 2 * 2 ^ 60 + n * 2 ^ 56
    | _ => 3 * 2 ^ 60

/-- The threads of a wait cycle, each with the issue in which its stitch came to wait: its threads enter the handler together
(R353). -/
def State.waitStitches (s : State) (tks : List Nat) : List (Nat × Nat) :=
  tks.map (fun tk => (tk, match s.thread? tk with | some t => t.issued | none => 0))

/-- A thread of a wait cycle takes trap 0x16 at its waiting instruction (R367); `c` is the thread with its stitch's issue. -/
def State.breakWait (s : State) (info : Nat) (c : Nat × Nat) : State :=
  let tk := c.1
  match s.thread? tk with
  | none => s
  | some t =>
    let s1 := match t.barred with
      | some h => if t.mode = Mode.trap then s else s.withdraw tk h
      | none => s
    (s1.modThread tk (fun t => if t.mode = Mode.trap then t else { t with wait := .none })).takeTrap tk ⟨0x16, s.waitVal tk t, info⟩
      c.2 false

/-- Since when a party has been blocked. -/
def State.blockedSince (s : State) : Party → Nat
  | .thread tk => match s.thread? tk with | some t => max t.waitSince t.unblocked | none => s.clk
  | .entry core id => match (s.core core).mxq.find? (fun e => e.id == id) with | some e => e.since | none => s.clk
  | .node bk n => match s.block? bk with
    | some b => match (b.node n).held with | some c => c.heldSince | none => s.clk
    | none => s.clk

/-- How many parties can be reached at most, counted with repetitions. -/
def probeFuel : Nat := 2 ^ 40

/-- Whether a closure is no wait cycle: held commands alone, one of which waits for a count that no command lowers, which is never an
error by itself (R434). -/
def State.onlyHeld (s : State) (ps : List Party) : Bool :=
  ps.all (fun q => match q with | .node .. => true | _ => false) && ps.any (fun q => s.enablers q == some [])

/-- WAIT_PROBE (R366, R367, R433): a party blocked for 2^20 core cycles; a closure of blocked parties is a wait cycle, its
threads trap, and pushing threads outside it hear of its held commands. -/
def execWaitProbe (p : Party) (s : State) : Out :=
  .next (if s.clk < s.blockedSince p + 2 ^ 20 then s
    else match s.closure probeFuel [] [p] with
    | none => s
    | some ps =>
      if s.onlyHeld ps then s else
      let tks := ps.filterMap (fun q => match q with | .thread tk => some tk | _ => none)
      let info := tks.length % 65536 + (ps.length - tks.length) % 65536 * 65536
      let held := ps.filterMap (fun q => match q with
        | .node bk n => (s.block? bk).bind (fun b => (b.node n).held.map (fun c => (c, n)))
        | _ => none)
      let s1 := (held.filter (fun c => !tks.contains c.1.tk)).foldl (fun s c => s.report c.1.tk (cmdInfo 0x17 c.1 2 0 c.2)) s
      (s1.waitStitches tks).foldl (fun s c => s.breakWait info c) s1)

end Sys2Proof.Machine
end

