-- ==== Sys2Proof/Machine/Debug.lean ====
section
/-!
DEFINITION. The debugger on the control ports (R203, R311, R363, R364): halts, resumes, thread records and breakpoints.
-/
namespace Sys2Proof.Machine

/-- Every thread of a halted block has stopped: a trap that was being taken stays pending, and the control node receives a record
of each. -/
def State.sendHalts (s : State) (bk : Nat) : State :=
  match s.block? bk with
  | none => s
  | some b =>
    let s1 := (s.threadsOf bk).foldl (fun s c => s.modThread c.1 Thread.stop) s
    (s1.setBlock bk { b with haltSent := true }).emitHalts bk { b with haltSent := true } 0

/-- The halted blocks whose branches, accesses and commands under way have come to an end send their records (R363). -/
def State.haltDrained (s : State) : State :=
  (s.blocks.filter (fun c => c.2.halted && !c.2.haltSent && s.accessStill c.1)).foldl (fun s c => s.sendHalts c.1) s

/-- DEBUGGER_HALT (R363, R364): every thread of a resident block stops at its next issue slot, one that has entered its handler in
this cycle with the trap still pending; the records go out once step 1 of R292 is carried out. -/
def execDebuggerHalt (core bslot : Nat) (s : State) : Out :=
  let bk := bkOf core bslot
  .next (match s.block? bk with
    | none => s
    | some b =>
      if b.halted then s
      else
        let s1 := ((s.threadsOf bk).foldl (fun s c => s.untake c.1) s).modBlock bk (fun b => { b with halted := true, haltSent := false })
        if s1.accessStill bk then s1.sendHalts bk else s1)

/-- DEBUGGER_RESUME (R363): every thread of the block goes on at its recorded PC; a fault that is still pending enters the
handler first (R364). -/
def execDebuggerResume (core bslot : Nat) (s : State) : Out :=
  let bk := bkOf core bslot
  .next (match s.block? bk with
    | none => s
    | some b =>
      (s.threadsOf bk).foldl (fun s c =>
        s.modThread c.1 (fun t => if t.wait = .halted then { t with wait := .none } else t))
        (s.setBlock bk { b with halted := false }))

/-- Whether a thread is halted for the debugger. -/
def State.isHalted (s : State) (tk : Nat) (t : Thread) : Bool :=
  t.wait == .halted || (match s.block? (tkBk tk) with | some b => b.halted && b.haltSent | none => false)

/-- THREAD_RECORD_READ (R363): of a halted thread. -/
def execThreadRecordRead (tk : Nat) (s : State) : Out :=
  .next (match s.thread? tk with
    | some t => if s.isHalted tk t then s.emit (.report "thread record" (tk :: (s.recordOf tk t).map (·.toNat))) else s
    | none => s)

/-- Bits [2:0] of byte 39 of a record that is written: the thread has exited, waits at BAR, sleeps. Bit [1] can only be cleared, which
withdraws the arrival (log 27). -/
def State.writeBits (s : State) (tk : Nat) (bs : List Byte) : State :=
  let bit (i : Nat) : Bool := (fld bs 39 1).testBit i
  match s.thread? tk with
  | none => s
  | some t =>
    if bit 0 then (if t.exited then s else s.exitThread tk)
    else
      let pc := BitVec.ofNat 56 (fld bs 0 8)
      match t.wait with
      | .bar tr k =>
        if bit 1 then s else (s.withdraw tk (if tr then .trap k else .skein k)).modThread tk (fun t => { t with pc := pc })
      | .sleep => if bit 2 then s else s.setThread tk { t with wait := .none }
      | w => s.setThread tk { t with exited := false, wait := if bit 2 ∧ w ≠ .halted then .sleep else w }

/-- The skeins of a thread after a write of its record: those left lose it in their pending phase (R38). -/
def State.writeSkeins (s : State) (tk m : Nat) : State :=
  match s.thread? tk with
  | some t =>
    let new : BitVec 16 := if t.exited then 0 else BitVec.ofNat 16 m ||| 1#16
    let gone := (List.range 16).filter (fun k => t.skeins.getLsbD k && !new.getLsbD k)
    gone.foldl (fun s k => s.leavePhase (tkBk tk) (.skein k) (tkThr tk)) (s.setThread tk { t with skeins := new })
  | none => s

/-- The mode and the trap skein of a thread after a write of its record. -/
def State.writeMode (s : State) (tk : Nat) (trap : Bool) (n : Nat) : State :=
  match s.thread? tk with
  | some t =>
    let s1 := match t.trapSkein with
      | some k => if trap && (match s.block? (tkBk tk) with | some b => b.trapTag k == n | none => false) then s
        else (s.modBlock (tkBk tk) (fun b => b.leaveTrap k (tkThr tk))).phaseCheck (tkBk tk) (.trap k)
      | none => s
    let num : Option Nat := match s1.block? (tkBk tk) with | some b => (b.trapSkeins.find? (fun z => z.tag == n)).map (·.num) | none => none
    let join (z : TrapSkein) : TrapSkein :=
      if num == some z.num && !z.members.contains (tkThr tk) then { z with members := z.members ++ [tkThr tk] } else z
    (s1.modBlock (tkBk tk) (fun b => if trap then { b with trapSkeins := b.trapSkeins.map join } else b)).modThread tk (fun t =>
      { t with mode := if trap then .trap else .user, trapSkein := if trap then num else none })
  | none => s

/-- THREAD_RECORD_WRITE (R363): of a halted thread. -/
def execThreadRecordWrite (tk : Nat) (bytes : List Byte) (s : State) : Out :=
  .next (match s.thread? tk with
    | some t =>
      if s.isHalted tk t && bytes.length == 256 then
        (((s.setThread tk { t.withRecord bytes with pcTop := 0 }).writeBits tk bytes).writeSkeins tk (fld bytes 32 4)).writeMode tk ((fld bytes 0 8).testBit 63)
          (fld bytes 52 2)
      else s
    | none => s)

/-- BREAKPOINT_ARM (R203, R311). -/
def execBreakpointArm (on : Bool) (s : State) : Out := .next { s with brk := on }

end Sys2Proof.Machine
end

