-- ==== Sys2Proof/Machine/Fabric.lean ====
section
/-!
DEFINITION. Accesses of other devices (R313 to R315) and the scale-out operations (R316, R317).
-/
namespace Sys2Proof.Machine

/-! ### The inbound filter (R315) -/

/-- Whether an address range of a site's device-register block is closed to other devices whatever the filter holds: MEASURE and the
filter lie in site 0's block. -/
def closedRegs (site ofs n : Nat) : Bool :=
  ([(0x100000, 0x4000), (0x200000, 0x8000), (0x300000, 0x2000), (0x330000, 0x20), (0x340000, 0x18000)] ++
    (if site = 0 then [(0x500000, 0x400), (0x600000, 0x2000)] else [])).any (fun r => decide (ofs < r.1 + r.2 ∧ r.1 < ofs + n))

/-- Whether an access is a store or a reduction, which returns nothing. -/
def Action.noReturn : Action → Bool
  | .store _ => true
  | .rmw _ _ _ ret => !ret
  | _ => false

/-- Whether the filter entry of the source lets an access pass (Table 15.5). -/
def passes (e pa : Nat) (act : Action) : Bool :=
  if paSpace pa = 1 then e.testBit 2 && !closedRegs (paSite pa) (paOfs pa) act.len
  else if act.noReturn then e.testBit 1
  else if act.writes then e.testBit 0 && e.testBit 1
  else e.testBit 0

/-- The site that a port counts as lying on (R15, R16): scale-up ports 0 to 17, scale-out ports 18 to 21 (R317). -/
def portSite (port : Nat) : Nat := edgeSite (if port < 18 then scaleUpDie port else scaleOutDie (port - 18))

/-- A write that comes in at a port is performed at its home slice, in precedence class 0 (R314, R317); it counts in no counter of
R65. -/
def State.portWrite (s : State) (port pa : Nat) (unc : Bool) (bs : List Byte) : State :=
  if s.cutOff (portSite port) (paSite pa) then s
  else s.engPlace (precedence 0 port) (paSite pa) pa unc bs []

/-- The write of a port's read-modify-write, which comes to its home slice after the plain writes of its cycle (R223) and goes on with
the release sequence of its bytes (R99). -/
def State.portModify (s : State) (pa : Nat) (unc : Bool) (bs : List Byte) : State := s.writeHome pa bs unc (paSite pa)

/-- A remote DRAM access is performed at its home slice, with the class of its port (R314); over a cut Hem it is answered as poison
(R408). -/
def State.remoteDram (s : State) (port src pa : Nat) (act : Action) : State :=
  let n := act.len
  let cut := s.cutOff (portSite port) (paSite pa)
  let po := if cut then some 7 else s.poisonIn pa n
  let old := leNat (s.readHome pa n)
  let answer (s : State) : State := match po with
    | some o => s.emit (.report "poison" [port, src, pa, o])
    | none => s.emit (.reply port old)
  match act with
  | .store bs => s.portWrite port pa false bs
  | .load _ | .refill _ => answer (if cut then s else s.touchHome pa false (4 * paSite pa))
  | _ =>
    let (nv, fl) := rmwNew act old
    let s0 := if cut then s else s.atomHome pa false (paSite pa)
    let s1 := match nv, po with | some v, none => s0.portModify pa false (leBytes n v) | _, _ => s0
    let s2 := if fl = 0 ∨ po.isSome then s1 else s1.emit (.report "flags" [port, src, fl.toNat])
    if act.noReturn then (if po.isSome then answer s2 else s2) else answer s2

/-- A remote access to device registers: loads and stores. -/
def State.remoteRegs (s : State) (port src pa : Nat) (act : Action) : State :=
  if s.cutOff (portSite port) (paSite pa) then (match act with
    | .store _ => s
    | _ => s.emit (.report "poison" [port, src, pa, 7]))
  else match act with
  | .store bs => s.devWrite .user pa bs
  | .load n => s.emit (.reply port (leNat (s.devRead pa n)))
  | _ => s.emit (.report "refused" [port, src, pa, 5])

/-- INBOUND_FILTER_ACCESS (R315): an access of device `src` at a port; a refused one is counted and answered as refused, with
ORIGIN 5 where it would return data. -/
def execInboundFilterAccess (port src pa : Nat) (act : Action) (s : State) : Out :=
  .next (if passes (Sparse.getD s.filter src 0) pa act then
      (if paSpace pa = 1 then s.remoteRegs port src pa act else s.remoteDram port src pa act)
    else ({ s with refusedFrom := Sparse.modify s.refusedFrom src 0 (· + 1) }).emit (.report "refused" [port, src, pa, 5]))

/-! ### Scale-out (R316, R317) -/

/-- Whether a range lies in the registered region of a queue pair, and is no longer than a message may be (Table 15.2). -/
def Qp.holds (q : Qp) (va n : Nat) : Bool :=
  decide (q.regionVa ≤ va ∧ va + n ≤ q.regionVa + q.regionLen ∧ n ≤ 2 ^ 31)

/-- Writes bytes at a VA of an ASID from a port. -/
def State.portVa (s : State) (port asid va : Nat) (bs : List Byte) : State :=
  (lineRuns va bs.length).foldl (fun s r =>
    match s.schedPa asid r.1 true with
    | some (pa, unc) => s.portWrite port pa unc ((bs.drop (r.1 - va)).take r.2)
    | none => s) s

/-- Whether a port reaches the home slices of `n` bytes at a VA (R15, R408). -/
def State.portReaches (s : State) (port asid va n : Nat) (w : Bool) : Bool :=
  (lineRuns va n).all (fun r => match s.schedPa asid r.1 w with
    | some (pa, _) => !s.cutOff (portSite port) (paSite pa)
    | none => false)

/-- The bytes that leave through a port, if it reaches them. -/
def State.portRead (s : State) (port asid va n : Nat) : Option (List Byte) :=
  if s.portReaches port asid va n false then s.readVa asid va n else none

/-- The completion entry of a message is written after its data (R317); its bytes are free values (log 28). -/
def State.qpDone (s : State) (port qp : Nat) (q : Qp) : State :=
  let bs := (List.range 16).map (Config.completionByte s.fresh)
  { (s.portVa port q.asid (q.cqVa + 16 * q.cqNext) bs).bumpFresh with qps := Sparse.set s.qps qp { q with cqNext := q.cqNext + 1 } }

/-- A message that a queue pair does not take. -/
def State.qpRefuse (s : State) (qp va n : Nat) : State := s.emit (.report "scale-out refused" [qp, va, n])

/-- Bytes that come in on a queue pair are performed at home slices, then the completion entry is written (R317). -/
def State.qpTake (s : State) (port qp : Nat) (q : Qp) (va : Nat) (bytes : List Byte) : State :=
  if s.portReaches port q.asid va bytes.length true then (s.portVa port q.asid va bytes).qpDone port qp q
  else s.qpRefuse qp va bytes.length

/-- RDMA_WRITE (R316, R317): the bytes are performed at home slices, then the completion entry, with the immediate if one
came. -/
def execRdmaWrite (port qp va : Nat) (bytes : List Byte) (imm : Option Word) (s : State) : Out :=
  .next (match Sparse.get? s.qps qp with
    | none => s.qpRefuse qp va bytes.length
    | some q =>
      if q.holds va bytes.length && s.portReaches (18 + port) q.asid va bytes.length true then
        let s1 := s.qpTake (18 + port) qp q va bytes
        (match imm with | some w => s1.emit (.report "immediate" [qp, w.toNat]) | none => s1)
      else s.qpRefuse qp va bytes.length)

/-- Bytes of a region leave through the queue pair. -/
def State.qpSend (s : State) (port qp va n : Nat) : State :=
  match Sparse.get? s.qps qp with
  | none => s.qpRefuse qp va n
  | some q => match s.portRead port q.asid va n with
    | some bs => if q.holds va n then (s.touchVa q.asid va n).emit (.rdma qp bs) else s.qpRefuse qp va n
    | none => s.qpRefuse qp va n

/-- RDMA_READ (R316, R317): the bytes leave through the queue pair. -/
def execRdmaRead (port qp va n : Nat) (s : State) : Out := .next (s.qpSend (18 + port) qp va n)

/-- RDMA_SEND (R316): the message goes into the receive buffer that was posted first, if it fits. -/
def execRdmaSend (port qp : Nat) (bytes : List Byte) (s : State) : Out :=
  .next (match Sparse.get? s.qps qp with
    | none => s.qpRefuse qp 0 bytes.length
    | some q => match q.recvVa with
      | [] => s.qpRefuse qp 0 bytes.length
      | (va, n) :: rest =>
        if bytes.length ≤ n then s.qpTake (18 + port) qp { q with recvVa := rest } va bytes
        else s.qpRefuse qp va bytes.length)

/-- An incoming 8-byte atomic, performed at the home slice: it answers the old value. -/
def State.qpAtomic (s : State) (port qp va : Nat) (new : DWord → Option DWord) : State :=
  match Sparse.get? s.qps qp with
  | none => s.qpRefuse qp va 8
  | some q => match s.portRead port q.asid va 8 with
    | none => s.qpRefuse qp va 8
    | some bs =>
      if va % 8 = 0 ∧ q.holds va 8 ∧ s.canWrite q.asid va 8 then
        let s1 := match s.schedPa q.asid va true with
          | some (pa, unc) =>
            let s0 := s.atomHome pa unc (paSite pa)
            (match new (BitVec.ofNat 64 (leNat bs)) with | some v => s0.portModify pa unc (leBytes 8 v.toNat) | none => s0)
          | none => s
        s1.emit (.rdma qp bs)
      else s.qpRefuse qp va 8

/-- RDMA_COMPARE_AND_SWAP (R316). -/
def execRdmaCompareAndSwap (port qp va : Nat) (old new : DWord) (s : State) : Out :=
  .next (s.qpAtomic (18 + port) qp va (fun x => if x = old then some new else none))

/-- RDMA_FETCH_AND_ADD (R316). -/
def execRdmaFetchAndAdd (port qp va : Nat) (b : DWord) (s : State) : Out :=
  .next (s.qpAtomic (18 + port) qp va (fun x => some (x + b)))

/-- DOORBELL_WRITE (R316, R317): software sets a queue pair up, registers its region and posts receive buffers; outgoing work reads
local memory after the doorbell and leaves through the queue pair, and what a READ or an atomic of the pair answers is written to
local memory, with a completion entry after it. -/
def execDoorbellWrite (port qp : Nat) (w : ScaleOutWork) (s : State) : Out :=
  .next (match w, Sparse.get? s.qps qp with
    | .setUp asid cqVa, _ => { s with qps := Sparse.set s.qps qp ⟨asid, 0, 0, [], cqVa, 0⟩ }
    | .send va n, _ => s.qpSend (18 + port) qp va n
    | .ask bytes, _ => s.emit (.rdma qp bytes)
    | .region va len, some q => { s with qps := Sparse.set s.qps qp { q with regionVa := va, regionLen := len } }
    | .receive va n, some q => { s with qps := Sparse.set s.qps qp { q with recvVa := q.recvVa ++ [(va, n)] } }
    | .answer va bytes, some q => if q.holds va bytes.length then s.qpTake (18 + port) qp q va bytes else s.qpRefuse qp va bytes.length
    | .region va n, none | .receive va n, none => s.qpRefuse qp va n
    | .answer va bytes, none => s.qpRefuse qp va bytes.length)

end Sys2Proof.Machine
end

