-- ==== Sys2Proof/Machine/Failures.lean ====
section
/-!
DEFINITION. Units that fail (R405 to R410, R413, R415, R435 to R437, R441): links, slices, vaults, engines, ports, cores.
-/
namespace Sys2Proof.Machine

/-- A whole site is fenced (R408, R441). -/
def State.fenceSite (s : State) (site : Nat) : State :=
  (List.range 4).foldl (fun s i => s.fenceCore (site * 4 + i)) (s.modSite site (fun x => { x with fenced := true }))

/-- Two fenced Hem segments cut the ring: every site of the arc without site 0 is fenced (R441). -/
def State.fenceArc (s : State) : State :=
  ((List.range 16).filter (fun i => s.cutOff 0 i && !(s.site i).fenced)).foldl State.fenceSite s

/-- A link has failed (R408, R409). -/
def State.failLink (s : State) : Link → State
  | .mesh site mesh link =>
    let x := s.site site
    if x.linkFailed.contains (mesh, link) then s
    else
      let s1 := s.setSite site { x with linkFailed := x.linkFailed ++ [(mesh, link)] }
      if x.linkFailed.any (fun l => l.1 == mesh) then
        (List.range 4).foldl (fun s i => s.fenceCore (site * 4 + i)) s1
      else s1
  | .hem segment =>
    if s.hemFailed.contains segment then s
    else ({ s with hemFailed := s.hemFailed ++ [segment] } : State).fenceArc

/-- FLIT_CRC_ERROR (R406): the flit is replayed, which nothing sees; after 16 replays in a row (`failed`) its link fails. -/
def execFlitCrcError (link : Link) (failed : Bool) (s : State) : Out :=
  .next (if failed then (s.log 3).failLink link else s.log 3)

/-- A vault is fenced, its near-memory unit with it (R415). -/
def State.fenceVault (s : State) (site v : Nat) : State :=
  (s.modSite site (fun x => { x with vaultFenced := x.vaultFenced ||| (1#4 <<< v) })).fenceUnit site v

/-- A line leaves a slice that is being fenced: written back, or, if it was dirty and cannot be read, its granules are
poisoned in DRAM with ORIGIN 2 (R403, R413). -/
def State.leaveSlice (s : State) (ln : Nat) (unreadable : Bool) : State :=
  match Sparse.get? s.lines ln with
  | none => s
  | some l =>
    if !unreadable then s.evictLine ln
    else if l.dirty then (s.dropLine ln).poisonHome (ln * 128) 128 2
    else s.dropLine ln

/-- A slice is served by its partner from now on, and the copies in it are gone (R410); with all four slices of a quadrant fenced, its
core and vault are too. -/
def State.markSlice (s : State) (site slice : Nat) : State :=
  let s0 : State := { s with lines := Sparse.mapVals s.lines (fun _ l => if Sparse.get? l.copies site = some slice then l.without site else l) }
  let s1 := s0.modSite site (fun x => { x with sliceFenced := x.sliceFenced ||| (1#16 <<< slice) })
  let q := slice / 4
  if (List.range 4).all (fun i => (s1.site site).sliceFenced.getLsbD (4 * q + i)) then
    (s1.fenceCore (site * 4 + q)).fenceVault site q
  else s1

/-- SLICE_FENCE (R413): GEN of both domains rises, the slice's lines leave it, and its partner serves them from then on. -/
def execSliceFence (site slice : Nat) (unreadable : List Nat) (s : State) : Out :=
  .next (if (s.site site).sliceFenced.getLsbD slice then s
    else
      let s1 := s.modSite site (fun x => { x with gen0 := (x.gen0 + 1) % 2 ^ 16, gen1 := (x.gen1 + 1) % 2 ^ 16 })
      let ls := (s1.lines.filter (fun c => c.2.slice == site * 16 + slice)).map (·.1)
      (ls.foldl (fun s ln => s.leaveSlice ln (unreadable.contains ln)) s1).markSlice site slice)

/-- A pseudo-channel fails (R415): the first only degrades the vault, the second fences it. -/
def State.failChannel (s : State) (site vault : Nat) : State :=
  let n := Sparse.getD (s.site site).chanFailed vault 0 + 1
  let s1 := (s.log 4).modSite site (fun x => { x with chanFailed := Sparse.set x.chanFailed vault n })
  if n ≥ 2 then s1.fenceVault site vault else s1
/-- PSEUDO_CHANNEL_FAILURE (R415). -/
def execPseudoChannelFailure (site vault : Nat) (s : State) : Out := .next (s.failChannel site vault)

/-- A copy engine is fenced (R435): its running commands are abandoned, and with both engines fenced the core is. -/
def State.fenceCopy (s : State) (core engine : Nat) : State :=
  let e := engine % 2
  let s1 := s.modCore core (fun c => { c with copyFenced := c.copyFenced ||| (1#2 <<< e) })
  let s2 := ((s1.site (core / 4)).running.filter (fun r => r.core == core && r.engine == e)).foldl
    (fun s r => s.abandonRunning r 7 0 0) s1
  if (s2.core core).copyFenced = 3#2 then s2.fenceCore core else s2
/-- COPY_ENGINE_FENCE (R435). -/
def execCopyEngineFence (core engine : Nat) (s : State) : Out := .next (s.fenceCopy core engine)

/-- A unit is fenced, or its channel counts as failed (Table 25.5, R441). -/
def State.fenceStart (s : State) : StartUnit → State
  | .core c => s.fenceCore c
  | .l2 site slice => s.markSlice site slice
  | .vault site v => s.fenceVault site v
  | .channel site v => s.failChannel site v
  | .copy core e => s.fenceCopy core e
  | .matrix core => s.fenceMatrix core
  | .near site u => s.fenceUnit site u
  | .att site => s.fenceAtt site
  | .site i => s.fenceSite i
/-- The unit that an order of Config.fenceOrder names. -/
def fencedUnit (kind n : Nat) : StartUnit :=
  match kind with
  | 0 => .core (n % 64)
  | 1 => .matrix (n % 64)
  | 2 => .near (n / 4 % 16) (n % 4)
  | 3 => .att (n % 16)
  | _ => .site (n % 16)
/-- What is fenced in a core cycle for an uncorrectable error in it or on firmware's order (R426, R437, R438, R441; log 51), and what
firmware sets DRAINMAX to (R450; log 51). -/
def State.firmwareActs (s : State) : State :=
  let s1 := match Config.fenceOrder s.fresh with | some (k, n) => s.fenceStart (fencedUnit k n) | none => s
  match Config.drainSetting s.fresh with
  | some d => if 1 ≤ d ∧ d ≤ 1000 then { s1 with drainMax := d } else s1
  | none => s1

/-- NMU_CALL_TIMEOUT (R436, R437): a call that runs for more than 2^24 core cycles is abandoned. -/
def execNmuCallTimeout (site unit : Nat) (s : State) : Out :=
  .next (match (s.site site).running.find? (fun r => r.engine == 2 + unit % 4) with
    | some r => if r.started + 2 ^ 24 < s.clk then s.failRunning r 6 0 0 else s
    | none => s)

/-- SCALE_UP_PORT_TIMEOUT (R405): a port that has not answered for 100 µs; its outstanding reads return poison with ORIGIN 5. -/
def execScaleUpPortTimeout (port : Nat) (s : State) : Out :=
  let s1 : State := { s with portsDown := (s.portsDown ++ [port]).eraseDups }
  let due (r : Req) : Bool := match r.place.pa? with
    | some pa => (r.stage == .mesh || r.stage == .hem) && r.act.reads && paDev pa != s.devno && Sparse.getD s.routes (paDev pa) 0 == port
    | none => false
  .next ((s1.reqs.filter due).foldl State.performAt s1)

/-- ISSUE_SLICE_FAILURE (R441): the slice issues no more, and its core is fenced. -/
def execIssueSliceFailure (core slice : Nat) (s : State) : Out :=
  .next ((s.modSlice core slice (fun x => { x with failed := true })).fenceCore core)

/-- Whether a frame is replicated after a window in which it had `r` remote reads and `w` remote writes (R65). -/
def Site.replicatedNext (x : Site) (was : Bool) (r w : Nat) : Bool :=
  if was then decide (w ≤ x.wthresh) && decide (x.rthresh / 2 ≤ r) else decide (x.rthresh ≤ r) && decide (w ≤ x.wthresh)

/-- The end of a site's window of 64 µs: frames change between memory-side and replicated, copies of the former go, and the
counters clear. -/
def State.windowEnd (s : State) (site : Nat) : State :=
  let x := s.site site
  let fs := if x.rthresh = 0 then List.range (2 ^ 15) else (x.reads.keys ++ x.writes.keys ++ x.replicated).eraseDups
  let next := fs.filter (fun F =>
    (x.replicated.contains F || !x.uncachedIn.contains F) && x.replicatedNext (x.replicated.contains F) (Sparse.getD x.reads F 0) (Sparse.getD x.writes F 0))
  let here (ln : Nat) : Bool := s.ownDram (ln * 128) && paSite (ln * 128) == site && !next.contains (frameOf (paOfs (ln * 128)))
  { s with lines := Sparse.mapVals s.lines (fun ln l => if here ln then l.alone else l) }.setSite site
    { x with replicated := next, reads := [], writes := [], uncachedIn := [] }

/-- REPLICATION_WINDOW (R65, R67). -/
def execReplicationWindow (site : Nat) (s : State) : Out := .next (s.windowEnd site)

end Sys2Proof.Machine
end

