-- ==== Sys2Proof/Machine/FloatVal.lean ====
section
/-!
DEFINITION. The results of classes 001 and 010 (chapter 08) as functions of the operand values alone.
-/
namespace Sys2Proof.Machine

/-! ### Class 001 -/

/-- A source bit pattern with its negate bit applied (R166). -/
def negBit (x : Nat) (on : Bool) : Nat := if on then x ^^^ 0x80000000 else x
/-- Source A as an FP32 pattern. -/
def srcA (f : Fields) (e : Opnds) : Nat := negBit e.a (f.fn.getLsbD 2)
/-- Source B as an FP32 pattern. -/
def srcB (f : Fields) (e : Opnds) : Nat := negBit e.b (f.fn.getLsbD 1)
/-- Source C as an FP32 pattern. -/
def srcC (f : Fields) (e : Opnds) : Nat := negBit e.c (f.fn.getLsbD 0)
/-- The value of source A. -/
def valA (f : Fields) (e : Opnds) : FV := ofIeee fp32 (srcA f e)
/-- The value of source B. -/
def valB (f : Fields) (e : Opnds) : FV := ofIeee fp32 (srcB f e)
/-- The value of source C. -/
def valC (f : Fields) (e : Opnds) : FV := ofIeee fp32 (srcC f e)
/-- The rounding mode of a word (Table 4.2). -/
def rmOf (f : Fields) : RM := RM.of f.top2

/-- FADD (R171). -/
def outFadd (f : Fields) (e : Opnds) : RegOut := outRes (arAdd fp32 (rmOf f) (valA f e) (valB f e))
/-- FSUB (R171). -/
def outFsub (f : Fields) (e : Opnds) : RegOut := outRes (arSub fp32 (rmOf f) (valA f e) (valB f e))
/-- FMUL (R171). -/
def outFmul (f : Fields) (e : Opnds) : RegOut := outRes (arMul fp32 (rmOf f) (valA f e) (valB f e))
/-- FFMA (R171). -/
def outFfma (f : Fields) (e : Opnds) : RegOut := outRes (arFma fp32 (rmOf f) (valA f e) (valB f e) (valC f e))
/-- FMIN (R172). -/
def outFmin (f : Fields) (e : Opnds) : RegOut := outRes (arMinMax fp32 false (srcA f e) (srcB f e))
/-- FMAX (R172). -/
def outFmax (f : Fields) (e : Opnds) : RegOut := outRes (arMinMax fp32 true (srcA f e) (srcB f e))
/-- FABS (R173). -/
def outFabs (_ : Fields) (e : Opnds) : RegOut := outVal (e.a % 2 ^ 31)
/-- FNEG (R173). -/
def outFneg (_ : Fields) (e : Opnds) : RegOut := outVal (e.a ^^^ 0x80000000)
/-- FCPYS (R173). -/
def outFcpys (_ : Fields) (e : Opnds) : RegOut := outVal (e.a % 2 ^ 31 + e.b / 2 ^ 31 * 2 ^ 31)
/-- FSAT (R173): clamps to [+0, 1]; NaN and −0 give +0. -/
def outFsat (f : Fields) (e : Opnds) : RegOut :=
  let x := srcA f e
  match ofIeee fp32 x with
  | .nan s => { val := some 0, flags := flagIf s fINV }
  | .inf n => outVal (if n then 0 else 0x3F800000)
  | .zero _ => outVal 0
  | .fin n _ _ => outVal (if n then 0 else if x > 0x3F800000 then 0x3F800000 else x)
/-- FCMP (R174). -/
def outFcmp (f : Fields) (e : Opnds) : RegOut :=
  let r := arCmp fp32 f.fcc (srcA f e) (srcB f e)
  { pred := some r.1, flags := r.2 }
/-- FSET (R174). -/
def outFset (f : Fields) (e : Opnds) : RegOut :=
  let r := arCmp fp32 f.fcc (srcA f e) (srcB f e)
  { val := some (if r.1 then 0x3F800000 else 0), flags := r.2 }
/-- FCLASS (R175). -/
def outFclass (f : Fields) (e : Opnds) : RegOut := outVal (2 ^ classBit fp32 (srcA f e))
/-- FRND (R176). -/
def outFrnd (f : Fields) (e : Opnds) : RegOut := outRes (arRnd fp32 (rmOf f) (valA f e))
/-- FDIV (R178). -/
def outFdiv (f : Fields) (e : Opnds) : RegOut := outRes (arDiv (rmOf f) (valA f e) (valB f e))
/-- FSQRT (R178). -/
def outFsqrt (f : Fields) (e : Opnds) : RegOut := outRes (arFn .sqrt (rmOf f) (valA f e))
/-- FRCP (R178). -/
def outFrcp (f : Fields) (e : Opnds) : RegOut := outRes (arFn .rcp (rmOf f) (valA f e))
/-- FRSQ (R178). -/
def outFrsq (f : Fields) (e : Opnds) : RegOut := outRes (arFn .rsq (rmOf f) (valA f e))
/-- FEXP2 (R178). -/
def outFexp2 (f : Fields) (e : Opnds) : RegOut := outRes (arFn .exp2 (rmOf f) (valA f e))
/-- FLOG2 (R178). -/
def outFlog2 (f : Fields) (e : Opnds) : RegOut := outRes (arFn .log2 (rmOf f) (valA f e))
/-- FSINPI (R178). -/
def outFsinpi (f : Fields) (e : Opnds) : RegOut := outRes (arFn .sinpi (rmOf f) (valA f e))
/-- FCOSPI (R178). -/
def outFcospi (f : Fields) (e : Opnds) : RegOut := outRes (arFn .cospi (rmOf f) (valA f e))
/-- FSCL (R177). -/
def outFscl (f : Fields) (e : Opnds) : RegOut := outRes (arScale fp32 (rmOf f) (valA f e) (intOf e.b 32 true))
/-- FGETE (R177): an integer exponent; zeros, infinities and NaNs raise INV. -/
def outFgete (f : Fields) (e : Opnds) : RegOut :=
  match valA f e with
  | .fin _ m x => outVal (wrapTo (expOf m x) 32)
  | .zero _ => { val := some 0x80000000, flags := fINV }
  | _ => { val := some 0x7FFFFFFF, flags := fINV }
/-- FGETM (R177). -/
def outFgetm (f : Fields) (e : Opnds) : RegOut :=
  match valA f e with
  | .fin n m x => outRes (roundFin fp32 .rn n m (x - expOf m x))
  | v => outRes (roundArith fp32 .rn v (sigFlags [v]))

/-! ### Class 010 -/

/-- Element i of a packed word (R166). -/
def elt16 (x i : Nat) : Nat := bitsOf x (16 * i) 16
/-- Two elements packed, with the flags of both (R180). -/
def pack2 (g : Nat → Res) : RegOut :=
  let r0 := g 0
  let r1 := g 1
  { val := some (r1.code * 65536 + r0.code), flags := r0.flags ||| r1.flags }
/-- The value of an element in the word's 16-bit format (R180). -/
def hv (f : Fields) (x i : Nat) : FV := ofIeee (fmtOf f.dt) (elt16 x i)

/-- HADD2 (R180). -/
def outHadd2 (f : Fields) (e : Opnds) : RegOut :=
  pack2 (fun i => arAdd (fmtOf f.dt) (rmOf f) (hv f e.a i) (hv f e.b i))
/-- HSUB2 (R180). -/
def outHsub2 (f : Fields) (e : Opnds) : RegOut :=
  pack2 (fun i => arSub (fmtOf f.dt) (rmOf f) (hv f e.a i) (hv f e.b i))
/-- HMUL2 (R180). -/
def outHmul2 (f : Fields) (e : Opnds) : RegOut :=
  pack2 (fun i => arMul (fmtOf f.dt) (rmOf f) (hv f e.a i) (hv f e.b i))
/-- HFMA2 (R180). -/
def outHfma2 (f : Fields) (e : Opnds) : RegOut :=
  pack2 (fun i => arFma (fmtOf f.dt) (rmOf f) (hv f e.a i) (hv f e.b i) (hv f e.c i))
/-- HMIN2 (R180). -/
def outHmin2 (f : Fields) (e : Opnds) : RegOut :=
  pack2 (fun i => arMinMax (fmtOf f.dt) false (elt16 e.a i) (elt16 e.b i))
/-- HMAX2 (R180). -/
def outHmax2 (f : Fields) (e : Opnds) : RegOut :=
  pack2 (fun i => arMinMax (fmtOf f.dt) true (elt16 e.a i) (elt16 e.b i))
/-- HCMP2 (R180). -/
def outHcmp2 (f : Fields) (e : Opnds) : RegOut :=
  pack2 (fun i =>
    let r := arCmp (fmtOf f.dt) (f.x.toNat % 8) (elt16 e.a i) (elt16 e.b i)
    ⟨if r.1 then 0xFFFF else 0, r.2⟩)
/-- HABS2 (R180). -/
def outHabs2 (_ : Fields) (e : Opnds) : RegOut := pack2 (fun i => ⟨elt16 e.a i % 0x8000, 0⟩)
/-- HCLASS2 (R180). -/
def outHclass2 (f : Fields) (e : Opnds) : RegOut := pack2 (fun i => ⟨2 ^ classBit (fmtOf f.dt) (elt16 e.a i), 0⟩)
/-- HDOT2 (R180): two exact products and an FP32 addend, rounded once to FP32. -/
def outHdot2 (f : Fields) (e : Opnds) : RegOut :=
  let p0 := mulFV (hv f e.a 0) (hv f e.b 0)
  let p1 := mulFV (hv f e.a 1) (hv f e.b 1)
  let c := ofIeee fp32 e.c
  let sg := sigFlags [hv f e.a 0, hv f e.b 0, hv f e.a 1, hv f e.b 1, c]
  outRes (addArith fp32 (rmOf f) [p0.1, p1.1, c] (p0.2 ||| p1.2 ||| sg))

/-- Element i as an integer of 16 bits (R181). -/
def int16 (f : Fields) (x i : Nat) : Int := intOf (elt16 x i) 16 (f.st % 2 == 1)
/-- IADD2 (R181). -/
def outIadd2 (f : Fields) (e : Opnds) : RegOut :=
  pack2 (fun i => ⟨wrapTo (int16 f e.a i + int16 f e.b i) 16, 0⟩)
/-- IMIN2 (R181). -/
def outImin2 (f : Fields) (e : Opnds) : RegOut :=
  pack2 (fun i => ⟨wrapTo (min (int16 f e.a i) (int16 f e.b i)) 16, 0⟩)
/-- IMAX2 (R181). -/
def outImax2 (f : Fields) (e : Opnds) : RegOut :=
  pack2 (fun i => ⟨wrapTo (max (int16 f e.a i) (int16 f e.b i)) 16, 0⟩)
/-- IPK16 (R181): saturating, with OVF for a clamped element. -/
def outIpk16 (f : Fields) (e : Opnds) : RegOut :=
  let s := f.st % 2 == 1
  pack2 (fun i =>
    let x := intOf (if i = 0 then e.a else e.b) 32 s
    let y := clampTo x 16 s
    ⟨wrapTo y 16, flagIf (x != y) fOVF⟩)
/-- IDOT4 (R181). -/
def outIdot4 (f : Fields) (e : Opnds) : RegOut :=
  let s := f.st % 2 == 1
  let t := (List.range 4).foldl
    (fun (acc : Int) j => acc + intOf (bitsOf e.a (8 * j) 8) 8 s * intOf (bitsOf e.b (8 * j) 8) 8 s) 0
  outVal (wrapTo (t + (e.c : Int)) 32)

/-- The value of a scalar float operand of type code `ty` (R166). -/
def scalarVal (ty x : Nat) : FV := ofIeee (fmtOf ty) (if ty = 0 then x else x % 65536)
/-- CVTF (R182). -/
def outCvtf (f : Fields) (e : Opnds) : RegOut := outRes (convIeee (fmtOf f.dt) (rmOf f) (scalarVal f.st e.a))
/-- CVTFI (R183). -/
def outCvtfi (f : Fields) (e : Opnds) : RegOut :=
  let r := convInt (if f.dt ≥ 2 then 64 else 32) (f.dt % 2 == 1) (rmOf f) (scalarVal f.st e.a)
  { val := some r.1, flags := r.2 }
/-- CVTIF (R182). -/
def outCvtif (f : Fields) (e : Opnds) : RegOut :=
  outRes (convIeee (fmtOf f.dt) (rmOf f) (ofInt (intOf e.a (if f.st ≥ 2 then 64 else 32) (f.st % 2 == 1))))
/-- The binary8 format code in X[4:0]. -/
def fmtX (f : Fields) : Nat := f.x.toNat % 32
/-- CVTF8 (R182). -/
def outCvtf8 (f : Fields) (e : Opnds) : RegOut := outRes (convB8 (fmtX f) (rmOf f) (scalarVal f.st e.a))
/-- CVT8F (R182): byte n of the source. -/
def outCvt8f (f : Fields) (e : Opnds) : RegOut :=
  outRes (convIeee (fmtOf f.dt) (rmOf f) (b8Value (fmtX f) (bitsOf e.a (8 * (f.x.toNat / 32 % 4)) 8)))
/-- PK8 (R184): one half of the old destination is kept. -/
def outPk8 (f : Fields) (e : Opnds) : RegOut :=
  let r0 := convB8 (fmtX f) (rmOf f) (scalarVal f.st e.a)
  let r1 := convB8 (fmtX f) (rmOf f) (scalarVal f.st e.b)
  let half := r1.code * 256 + r0.code
  { val := some (if f.x.getLsbD 5 then e.old % 65536 + half * 65536 else e.old / 65536 * 65536 + half)
    flags := r0.flags ||| r1.flags }
/-- UNPK8 (R184). -/
def outUnpk8 (f : Fields) (e : Opnds) : RegOut :=
  let h := bit1 (f.x.getLsbD 5)
  let g (i : Nat) : Res := convIeee fp32 .rn (b8Value (fmtX f) (bitsOf e.a (8 * (2 * h + i)) 8))
  { val := some ((g 1).code * 2 ^ 32 + (g 0).code), flags := (g 0).flags ||| (g 1).flags }
/-- PK16 (R182). -/
def outPk16 (f : Fields) (e : Opnds) : RegOut :=
  pack2 (fun i => convIeee (fmtOf f.dt) (rmOf f) (ofIeee fp32 (if i = 0 then e.a else e.b)))
/-- UNPK16 (R184). -/
def outUnpk16 (f : Fields) (e : Opnds) : RegOut :=
  let g (i : Nat) : Res := convIeee fp32 .rn (ofIeee (fmtOf f.st) (elt16 e.a i))
  { val := some ((g 1).code * 2 ^ 32 + (g 0).code), flags := (g 0).flags ||| (g 1).flags }
/-- CVTSF8 (R185): the element for a given scale code. -/
def outCvtsf8 (f : Fields) (e : Opnds) : RegOut :=
  match b8Value b8Scale (e.b % 256), ofIeee fp32 e.a with
  | .fin n m x, .fin n' m' x' =>
    -- a scale is a power of two: its mantissa is 1
    outRes (convB8 (fmtX f) .rn (.fin (n != n') m' (x' - x - (ilog2 m : Int))))
  | .fin n _ _, .zero n' => outRes (convB8 (fmtX f) .rn (.zero (n != n')))
  | .fin n _ _, .inf n' => outRes (convB8 (fmtX f) .rn (.inf (n != n')))
  | .fin _ _ _, v => outRes (convB8 (fmtX f) .rn v)
  | _, _ => { val := some (b8Fmt (fmtX f)).nanCode, flags := fINV ||| fNAN }

end Sys2Proof.Machine
end

