-- ==== Sys2Proof/Machine/Float.lean ====
section
/-!
DEFINITION. Class 001 (chapter 08): FP32 arithmetic, ready after 6 slice cycles in deterministic mode (Table 2.4), and the
function group, whose results are long-latency (R31, R178).
-/
namespace Sys2Proof.Machine

/-- FADD (R171). -/
def execFadd (f : Fields) (s : State) : Out := execCompute .fadd 6 f (outFadd f) s

/-- FSUB (R171). -/
def execFsub (f : Fields) (s : State) : Out := execCompute .fsub 6 f (outFsub f) s

/-- FMUL (R171). -/
def execFmul (f : Fields) (s : State) : Out := execCompute .fmul 6 f (outFmul f) s

/-- FFMA (R171). -/
def execFfma (f : Fields) (s : State) : Out := execCompute .ffma 6 f (outFfma f) s

/-- FMIN (R172). -/
def execFmin (f : Fields) (s : State) : Out := execCompute .fmin 6 f (outFmin f) s

/-- FMAX (R172). -/
def execFmax (f : Fields) (s : State) : Out := execCompute .fmax 6 f (outFmax f) s

/-- FABS (R173). -/
def execFabs (f : Fields) (s : State) : Out := execCompute .fabs 6 f (outFabs f) s

/-- FNEG (R173). -/
def execFneg (f : Fields) (s : State) : Out := execCompute .fneg 6 f (outFneg f) s

/-- FCMP (R174). -/
def execFcmp (f : Fields) (s : State) : Out := execCompute .fcmp 6 f (outFcmp f) s

/-- FSET (R174). -/
def execFset (f : Fields) (s : State) : Out := execCompute .fset 6 f (outFset f) s

/-- FCLASS (R175). -/
def execFclass (f : Fields) (s : State) : Out := execCompute .fclass 6 f (outFclass f) s

/-- FRND (R176). -/
def execFrnd (f : Fields) (s : State) : Out := execCompute .frnd 6 f (outFrnd f) s

/-- FSCL (R177). -/
def execFscl (f : Fields) (s : State) : Out := execCompute .fscl 6 f (outFscl f) s

/-- FCPYS (R173). -/
def execFcpys (f : Fields) (s : State) : Out := execCompute .fcpys 6 f (outFcpys f) s

/-- FGETE (R177). -/
def execFgete (f : Fields) (s : State) : Out := execCompute .fgete 6 f (outFgete f) s

/-- FGETM (R177). -/
def execFgetm (f : Fields) (s : State) : Out := execCompute .fgetm 6 f (outFgetm f) s

/-- FSAT (R173). -/
def execFsat (f : Fields) (s : State) : Out := execCompute .fsat 6 f (outFsat f) s

/-- FDIV (R178). -/
def execFdiv (f : Fields) (s : State) : Out := execFunc .fdiv f (outFdiv f) s

/-- FSQRT (R178). -/
def execFsqrt (f : Fields) (s : State) : Out := execFunc .fsqrt f (outFsqrt f) s

/-- FRCP (R178). -/
def execFrcp (f : Fields) (s : State) : Out := execFunc .frcp f (outFrcp f) s

/-- FRSQ (R178). -/
def execFrsq (f : Fields) (s : State) : Out := execFunc .frsq f (outFrsq f) s

/-- FEXP2 (R178). -/
def execFexp2 (f : Fields) (s : State) : Out := execFunc .fexp2 f (outFexp2 f) s

/-- FLOG2 (R178). -/
def execFlog2 (f : Fields) (s : State) : Out := execFunc .flog2 f (outFlog2 f) s

/-- FSINPI (R178). -/
def execFsinpi (f : Fields) (s : State) : Out := execFunc .fsinpi f (outFsinpi f) s

/-- FCOSPI (R178). -/
def execFcospi (f : Fields) (s : State) : Out := execFunc .fcospi f (outFcospi f) s

end Sys2Proof.Machine
end

