-- ==== Sys2Proof/Machine/Integer.lean ====
section
/-!
DEFINITION. Class 000 (chapter 07): every instruction that only computes is one call of `execCompute` with its own result function;
its result is ready 4 slice cycles after issue in deterministic mode (Table 2.4).
-/
namespace Sys2Proof.Machine

/-- IADD (R148). -/
def execIadd (f : Fields) (s : State) : Out := execCompute .iadd 4 f (outIadd f) s

/-- ISUB (R148). -/
def execIsub (f : Fields) (s : State) : Out := execCompute .isub 4 f (outIsub f) s

/-- IMUL (R148). -/
def execImul (f : Fields) (s : State) : Out := execCompute .imul 4 f (outImul f) s

/-- IMULHI (R148). -/
def execImulhi (f : Fields) (s : State) : Out := execCompute .imulhi 4 f (outImulhi f) s

/-- IMAD (R148). -/
def execImad (f : Fields) (s : State) : Out := execCompute .imad 4 f (outImad f) s

/-- IMIN (R148). -/
def execImin (f : Fields) (s : State) : Out := execCompute .imin 4 f (outImin f) s

/-- IMAX (R148). -/
def execImax (f : Fields) (s : State) : Out := execCompute .imax 4 f (outImax f) s

/-- IABS (R148). -/
def execIabs (f : Fields) (s : State) : Out := execCompute .iabs 4 f (outIabs f) s

/-- LEA (R150). -/
def execLea (f : Fields) (s : State) : Out := execCompute .lea 4 f (outLea f) s

/-- ICMP (R151). -/
def execIcmp (f : Fields) (s : State) : Out := execCompute .icmp 4 f (outIcmp f) s

/-- SEL (R152). -/
def execSel (f : Fields) (s : State) : Out := execCompute .sel 4 f (outSel f) s

/-- AND (R153). -/
def execAnd (f : Fields) (s : State) : Out := execCompute .and 4 f (outAnd f) s

/-- OR (R153). -/
def execOr (f : Fields) (s : State) : Out := execCompute .or 4 f (outOr f) s

/-- XOR (R153). -/
def execXor (f : Fields) (s : State) : Out := execCompute .xor 4 f (outXor f) s

/-- ANDN (R153). -/
def execAndn (f : Fields) (s : State) : Out := execCompute .andn 4 f (outAndn f) s

/-- SHL (R154). -/
def execShl (f : Fields) (s : State) : Out := execCompute .shl 4 f (outShl f) s

/-- SHR (R154). -/
def execShr (f : Fields) (s : State) : Out := execCompute .shr 4 f (outShr f) s

/-- SHA (R154). -/
def execSha (f : Fields) (s : State) : Out := execCompute .sha 4 f (outSha f) s

/-- SHF (R155). -/
def execShf (f : Fields) (s : State) : Out := execCompute .shf 4 f (outShf f) s

/-- BFX (R156). -/
def execBfx (f : Fields) (s : State) : Out := execCompute .bfx 4 f (outBfx f) s

/-- BFI (R156). -/
def execBfi (f : Fields) (s : State) : Out := execCompute .bfi 4 f (outBfi f) s

/-- POPC (R157). -/
def execPopc (f : Fields) (s : State) : Out := execCompute .popc 4 f (outPopc f) s

/-- CLZ (R157). -/
def execClz (f : Fields) (s : State) : Out := execCompute .clz 4 f (outClz f) s

/-- BREV (R157). -/
def execBrev (f : Fields) (s : State) : Out := execCompute .brev 4 f (outBrev f) s

/-- PERM (R158). -/
def execPerm (f : Fields) (s : State) : Out := execCompute .perm 4 f (outPerm f) s

/-- PLOP (R159). -/
def execPlop (f : Fields) (s : State) : Out := execCompute .plop 4 f (outPlop f) s

/-- MOV (R160). -/
def execMov (f : Fields) (s : State) : Out := execCompute .mov 4 f (outMov f) s

/-- ISAD (R149). -/
def execIsad (f : Fields) (s : State) : Out := execCompute .isad 4 f (outIsad f) s

/-- IMULW (R149). -/
def execImulw (f : Fields) (s : State) : Out := execCompute .imulw 4 f (outImulw f) s

end Sys2Proof.Machine
end

