-- ==== Sys2Proof/Machine/Packed.lean ====
section
/-!
DEFINITION. Class 010 (chapter 08): packed 16-bit and 8-bit arithmetic and conversions.
-/
namespace Sys2Proof.Machine

/-- HADD2 (R180). -/
def execHadd2 (f : Fields) (s : State) : Out := execCompute .hadd2 6 f (outHadd2 f) s

/-- HSUB2 (R180). -/
def execHsub2 (f : Fields) (s : State) : Out := execCompute .hsub2 6 f (outHsub2 f) s

/-- HMUL2 (R180). -/
def execHmul2 (f : Fields) (s : State) : Out := execCompute .hmul2 6 f (outHmul2 f) s

/-- HFMA2 (R180). -/
def execHfma2 (f : Fields) (s : State) : Out := execCompute .hfma2 6 f (outHfma2 f) s

/-- HMIN2 (R180). -/
def execHmin2 (f : Fields) (s : State) : Out := execCompute .hmin2 6 f (outHmin2 f) s

/-- HMAX2 (R180). -/
def execHmax2 (f : Fields) (s : State) : Out := execCompute .hmax2 6 f (outHmax2 f) s

/-- HCMP2 (R180). -/
def execHcmp2 (f : Fields) (s : State) : Out := execCompute .hcmp2 6 f (outHcmp2 f) s

/-- HDOT2 (R180). -/
def execHdot2 (f : Fields) (s : State) : Out := execCompute .hdot2 6 f (outHdot2 f) s

/-- CVTF (R182). -/
def execCvtf (f : Fields) (s : State) : Out := execCompute .cvtf 6 f (outCvtf f) s

/-- CVTFI (R183). -/
def execCvtfi (f : Fields) (s : State) : Out := execCompute .cvtfi 6 f (outCvtfi f) s

/-- CVTIF (R182). -/
def execCvtif (f : Fields) (s : State) : Out := execCompute .cvtif 6 f (outCvtif f) s

/-- CVTF8 (R182). -/
def execCvtf8 (f : Fields) (s : State) : Out := execCompute .cvtf8 6 f (outCvtf8 f) s

/-- CVT8F (R182). -/
def execCvt8f (f : Fields) (s : State) : Out := execCompute .cvt8f 6 f (outCvt8f f) s

/-- PK8 (R184). -/
def execPk8 (f : Fields) (s : State) : Out := execCompute .pk8 6 f (outPk8 f) s

/-- UNPK8 (R184). -/
def execUnpk8 (f : Fields) (s : State) : Out := execCompute .unpk8 6 f (outUnpk8 f) s

/-- PK16 (R182). -/
def execPk16 (f : Fields) (s : State) : Out := execCompute .pk16 6 f (outPk16 f) s

/-- UNPK16 (R184). -/
def execUnpk16 (f : Fields) (s : State) : Out := execCompute .unpk16 6 f (outUnpk16 f) s

/-- CVTSF8 (R185). -/
def execCvtsf8 (f : Fields) (s : State) : Out := execCompute .cvtsf8 6 f (outCvtsf8 f) s

/-- HABS2 (R180). -/
def execHabs2 (f : Fields) (s : State) : Out := execCompute .habs2 6 f (outHabs2 f) s

/-- HCLASS2 (R180). -/
def execHclass2 (f : Fields) (s : State) : Out := execCompute .hclass2 6 f (outHclass2 f) s

/-- IPK16 (R181). -/
def execIpk16 (f : Fields) (s : State) : Out := execCompute .ipk16 6 f (outIpk16 f) s

/-- IDOT4 (R181). -/
def execIdot4 (f : Fields) (s : State) : Out := execCompute .idot4 6 f (outIdot4 f) s

/-- IADD2 (R181). -/
def execIadd2 (f : Fields) (s : State) : Out := execCompute .iadd2 6 f (outIadd2 f) s

/-- IMIN2 (R181). -/
def execImin2 (f : Fields) (s : State) : Out := execCompute .imin2 6 f (outImin2 f) s

/-- IMAX2 (R181). -/
def execImax2 (f : Fields) (s : State) : Out := execCompute .imax2 6 f (outImax2 f) s

end Sys2Proof.Machine
end

