-- ==== Sys2Proof/Machine/SliceCycle.lean ====
section
/-!
DEFINITION. One cycle of an issue slice (R23 to R30, R207, R297): which threads are ready, how they stand in the stitch
table, which stitches issue, and what the cycle counts.
-/
namespace Sys2Proof.Machine

/-! ### Readiness (R24, R31, R32) -/

/-- The opcode byte and fields that a fetch at a thread's PC gives now, if it gives a word. -/
def State.peek (s : State) (tk : Nat) (t : Thread) (b : Block) : Option (BitVec 8 × Fields) :=
  match s.fetch (tkCore tk) b.asid t t.pc with
  | .word bs _ => some (opcodeOf (wordOfBytes bs), fieldsOf (wordOfBytes bs))
  | _ => none

/-- Whether what a thread waits for has come, so that its instruction may issue again. -/
def State.waitOver (s : State) (tk : Nat) (t : Thread) (b : Block) : Bool :=
  match t.wait with
  | .none | .window => true
  | .branch _ | .walk _ | .dataWalk _ | .bar _ _ | .sleep | .halted | .closing => false
  | .access => true
  | .flags => s.flagsSet tk t
  | .specEnd | .specPort => t.spec.isNone
  | .bwait c bslot o ph _ => (s.obj c o).phase == ph || (s.block? (bkOf c bslot)).isNone
  | .seam n ph => (b.seam n).phase == ph
  | .stwait n => decide (t.pst ≤ n)
  | .fence sc => s.fenceOk tk t sc
  | .operand => s.operandOk tk t
  | .marker => !s.objectHeld tk t b (match s.peek tk t b with | some (_, f) => sAddr .barrive t b f | none => 0)
  | .refill => t.refill.isNone
  | .serial => !s.reqs.any (fun r => r.tk == tk && r.place.isDev) &&
      (s.serialOk tk || (match s.peek tk t b with | some (c, _) => c.toNat / 32 != 6 | none => true))
  | .effect id v => s.effectDone id v
  | .yielded n => decide (n < s.permitted tk)
  | .matrixRoom _ => s.mayEnter tk t
  | .mates k => !(s.threadsOf (tkBk tk)).any (fun c => !c.2.exited && c.2.wait == .matrixRoom k)
  | .matrixEntry id _ => !((s.core (tkCore tk)).mxq ++ b.savedEntries).any (fun e => e.id == id)
  | .release c | .replay c => decide (c ≤ s.now (tkCore tk))

/-- Whether a thread may sample %clk (R162): no acquire of its own, nor one that happens-before it, is still to be performed, since
what it finds would happen-before the sample. -/
def State.clkOk (s : State) (tk : Nat) (t : Thread) : Bool :=
  s.reqs.all (fun r => !(r.ord.acquires && r.stage != .done && (r.tk == tk || t.hb.contains r.id)))

/-- Whether every result that the next instruction reads has been written (R32); FLAGS reads the flags of earlier instructions of
class F (R197), and %clk is sampled behind open acquires (R162). -/
def State.resultsReady (s : State) (tk : Nat) (t : Thread) (b : Block) : Bool :=
  match s.peek tk t b with
  | some (c, f) =>
    match Op.ofCode c with
    | some op => (regsRead op b.limits f).all (fun r => decide (Sparse.getD t.readyAt r 0 ≤ s.now (tkCore tk))) &&
        (predsRead op f).all (fun p => decide (Sparse.getD t.predAt p 0 ≤ s.now (tkCore tk))) &&
        (banksRead op f).all (fun h => decide (Sparse.getD t.bankAt h 0 ≤ s.now (tkCore tk))) && (op != .flags || t.flagsDue == []) &&
        (op != .movsr || f.a.idx != 12 || !guardOf t f || s.clkOk tk t)
    | none => true
  | none => true

/-- Whether a lookahead window of the thread has closed before its result was written (R31). -/
def Thread.windowClosed (t : Thread) : Bool := t.pends.any (fun p => p.left == 0)

/-- Whether a block's threads may issue at all. -/
def Block.runs (b : Block) : Bool := !(b.stopping || b.halted || b.doubleFault || b.discard)

/-- Whether a thread can issue its next instruction (R24). -/
def State.isReady (s : State) (tk : Nat) (t : Thread) (b : Block) : Bool :=
  !t.exited && b.runs && s.waitOver tk t b && !t.issuedWait && !t.windowClosed &&
    ((nextTrap t).isSome || s.resultsReady tk t b)

/-- The threads of a slice, with their blocks, in ascending key order. -/
def State.sliceThreads (s : State) (core sl : Nat) : List (Nat × Thread × Block) :=
  s.threads.filterMap (fun c =>
    if tkCore c.1 = core ∧ sliceOfThr (tkThr c.1) = sl then (s.block? (tkBk c.1)).map (fun b => (c.1, c.2, b)) else none)

/-- Whether a speculative path has come to its end: eight instructions, one that cannot be speculated (R34), or a trap that must
come before the next one (R358, R359). -/
def State.pathEnds (s : State) (tk : Nat) (t : Thread) (b : Block) : Bool :=
  match t.spec with
  | some p => decide (p.count ≥ 8) || t.trapNext != [] || (match s.peek tk t b with
      | some (c, f) => (match Op.ofCode c with | some op => waitsResolution op f | none => false)
      | none => false)
  | none => false

/-- Whether the next instruction of a thread is still to be fetched, and at what address its translation is missing (R52). -/
def State.fetchMiss (s : State) (tk : Nat) (t : Thread) (b : Block) : Option Nat :=
  match s.fetch (tkCore tk) b.asid t t.pc with
  | .miss va => if (nextTrap t).isSome then none else some va
  | _ => none

/-- Threads whose window has closed begin to wait for it (R31, R365), unless a report takes them out of a collective (R422), those at the end of a speculative path for its
resolution, and those whose instruction is not translated for the walk. -/
def State.noteWaits (s : State) (core sl : Nat) : State :=
  (s.sliceThreads core sl).foldl (fun s x =>
    if x.2.1.wait != Wait.none || x.2.1.exited || !x.2.2.runs then s
    else if x.2.1.windowClosed then (s.waitFor x.1 .window).leaveWait x.1
    else if s.pathEnds x.1 x.2.1 x.2.2 then s.waitFor x.1 .specEnd
    else match s.fetchMiss x.1 x.2.1 x.2.2 with
    | some va => s.waitWalk x.1 x.2.2.asid va .walk
    | none => s) s

/-! ### The stitch table (R23, R24) -/

/-- The set of a stitch: the XOR-fold of PC[55:2] into 5 bits. -/
def stitchSet (pc : BitVec 56) : Nat := (List.range 11).foldl (fun h i => h ^^^ (pc.toNat / 2 ^ (2 + 5 * i) % 32)) 0

/-- A thread to be inserted: its key and the stitch key it stands at. -/
structure Cand where
  tk : Nat
  pc : BitVec 56
  bslot : Nat
  mode : Mode
  deriving DecidableEq, Repr

/-- Whether a stitch has a candidate's key and room in its lane. -/
def Stitch.takes (z : Stitch) (k : Cand) : Bool :=
  z.pc == k.pc && z.bslot == k.bslot && z.mode == k.mode && !z.members.any (fun m => m.1 == laneOfThr (tkThr k.tk))

/-- Puts a thread into the stitch table (R24); none where its set is full. -/
def insertStitch (tab : List Stitch) (k : Cand) : Option (List Stitch) :=
  let lane := laneOfThr (tkThr k.tk)
  match (sortBy (fun a b => decide (a.born ≤ b.born)) (tab.filter (fun z => z.takes k))).head? with
  | some z => some (tab.map (fun y =>
      if y.born = z.born then { y with members := insertBy (fun a b => decide (a.1 ≤ b.1)) (lane, k.tk) y.members } else y))
  | none =>
    if (tab.filter (fun z => stitchSet z.pc == stitchSet k.pc)).length < 4 then
      some (tab ++ [⟨k.pc, k.bslot, k.mode, [(lane, k.tk)], 0, (tab.map (·.born)).foldl max 0 + 1⟩])
    else none

/-- The stitch table of a slice brought up to date with the threads that are ready, unlisted ones first where their set has a
free entry, oldest first; those of one cycle in the order of their keys (log 63). -/
def Slice.refresh (x : Slice) (ready : List Cand) : Slice :=
  let at_ (tk : Nat) : Option Cand := ready.find? (fun k => k.tk == tk)
  let keeps (z : Stitch) (tk : Nat) : Bool :=
    match at_ tk with | some k => k.pc == z.pc && k.bslot == z.bslot && k.mode == z.mode | none => false
  let tab := (x.table.map (fun z => { z with members := z.members.filter (fun m => keeps z m.2) })).filter
    (fun z => z.members != [])
  let old := x.unlisted.filterMap (fun u => at_ u.2)
  let open_ (k : Cand) : Bool := decide ((tab.filter (fun z => stitchSet z.pc == stitchSet k.pc)).length < 4)
  let known (tk : Nat) : Bool := old.any (fun k => k.tk == tk) || tab.any (fun z => z.members.any (fun m => m.2 == tk))
  let new := ready.filter (fun k => !known k.tk)
  let put (acc : List Stitch × List Cand) (c : Cand × Bool) : List Stitch × List Cand :=
    if !c.2 then (acc.1, acc.2 ++ [c.1])
    else match insertStitch acc.1 c.1 with
    | some t => (t, acc.2)
    | none => (acc.1, acc.2 ++ [c.1])
  let r := (old.map (fun k => (k, open_ k)) ++ new.map (fun k => (k, true))).foldl put (tab, [])
  { x with table := r.1, unlisted := r.2.zipIdx.map (fun c => (c.2, c.1.tk)) }

/-! ### Selection (R26, R27) -/

/-- The first of two orders, else the second. -/
def thenLe (lt gt rest : Bool) : Bool := lt || (!gt && rest)

/-- The selection order of R26. -/
def stitchLe (a b : Stitch) : Bool :=
  let aged (z : Stitch) : Nat := if z.age ≥ 1024 then z.age else 0
  let mode (z : Stitch) : Nat := if z.mode = .trap then 0 else 1
  thenLe (aged b < aged a) (aged a < aged b)
    (thenLe (a.pc.toNat < b.pc.toNat) (b.pc.toNat < a.pc.toNat)
      (thenLe (a.bslot < b.bslot) (b.bslot < a.bslot)
        (thenLe (mode a < mode b) (mode b < mode a) (decide (a.born ≤ b.born)))))

/-- A stitch with the instruction that stands at its PC, as far as its word can be fetched and its opcode is assigned. -/
structure Picked where
  st : Stitch
  fetched : Bool
  ins : Option (Op × Fields × Limits)
  deriving DecidableEq, Repr

/-- The instruction of a stitch. -/
def State.picked (s : State) (z : Stitch) : Picked :=
  match z.members.head? with
  | some m =>
    match s.thread? m.2, s.block? (tkBk m.2) with
    | some t, some b =>
      match s.peek m.2 t b with
      | some (c, f) => ⟨z, true, (Op.ofCode c).map (fun op => (op, f, b.limits))⟩
      | none => ⟨z, false, none⟩
    | _, _ => ⟨z, false, none⟩
  | none => ⟨z, false, none⟩

/-- The shared port of a picked stitch (Table 2.2). -/
def Picked.port (p : Picked) : Port := match p.ins with | some (op, f, _) => portOf op f | none => .none

/-- The members' thread keys. -/
def Stitch.keys (z : Stitch) : List Nat := z.members.map (·.2)

/-! ### Register banks and the operand latch (R29, R30) -/

/-- One read of a bank: read cycle, lane pair, bank, register and slot. -/
abbrev BankRead := Nat × Nat × Nat × Nat × Nat

/-- The bank reads of a stitch; registers in the operand latch need none. -/
def State.bankReads (s : State) (x : Slice) (p : Picked) : List BankRead :=
  match p.ins with
  | none => []
  | some (op, f, lim) =>
    let hit (r : Nat) : Bool := x.latch.any (fun l => l.members == p.st.keys && l.regs.contains r)
    let slotOf (tk : Nat) : Nat := match s.block? (tkBk tk) with | some b => tkThr tk / 192 + b.slotb | none => 0
    ((readCycles op lim f).zipIdx.flatMap (fun c => (c.1.filter (fun r => !hit r)).flatMap (fun r =>
      p.st.members.map (fun m => (c.2, m.1 / 2, (r + slotOf m.2) % 4, r, slotOf m.2))))).eraseDups

/-- Whether two reads need different rows of one bank in one read cycle. -/
def bankClash (a b : BankRead) : Bool :=
  a.1 == b.1 && a.2.1 == b.2.1 && a.2.2.1 == b.2.2.1 && a.2.2.2 != b.2.2.2

/-- Extra rows of a stitch's reads (R29), and the fourth read cycle of PUSH. -/
def Picked.extraRows (p : Picked) (rs : List BankRead) : Nat :=
  let worst (c : Nat) : Nat := (rs.filter (fun r => r.1 == c)).foldl (fun m r =>
    max m (rs.filter (fun q => bankClash r q)).length) 0
  worst 0 + worst 1 + worst 2 + worst 3 + (match p.ins with | some (.push, _, _) => 1 | _ => 0)

/-- The registers that a picked stitch writes as it issues: none if every guard is false, and none for a long-latency
result, which is written when it lands. -/
def State.writesNow (s : State) (p : Picked) : List Nat :=
  match p.ins with
  | none => []
  | some (op, f, lim) =>
    let runs (tk : Nat) : Bool := match s.thread? tk with | some t => guardOf t f | none => false
    if longLatency op f || !p.st.keys.any runs then [] else regsWritten op lim f

/-- The operand latch after a stitch has issued (R30): the entry used last stands last. -/
def State.latchAfter (s : State) (l : List Latch) (p : Picked) : List Latch :=
  let ks := p.st.keys
  let other (e : Latch) : Bool := e.members != ks && e.members.any ks.contains
  match p.ins with
  | none => l.filter (fun e => !other e)
  | some (op, f, lim) =>
    let reads := regsRead op lim f
    let lost (rs : List Nat) : Bool := rs.any (s.writesNow p).contains
    let mine (e : Latch) : Bool := e.members == ks
    let reused (e : Latch) : Bool := mine e && e.regs.any reads.contains
    let keep := l.filter (fun e => !other e && !(mine e && lost e.regs))
    let used := (keep.filter reused).map (fun e => { e with uses := e.uses - 1 })
    let l1 := keep.filter (fun e => !reused e) ++ used.filter (fun e => decide (0 < e.uses))
    let rs := heldRegs op lim f
    if rs = [] ∨ lost rs = true then l1
    else
      let l2 := l1.filter (fun e => !(mine e && e.regs == rs))
      (if l2.length < 3 then l2 else l2.drop 1) ++ [⟨ks, rs, 2⟩]

/-- Entries of a stitch that has split or received a thread, or that has lost one for good, are dropped (R30). -/
def State.latchStands (s : State) (tab : List Stitch) (e : Latch) : Bool :=
  e.members.all (fun tk => match s.thread? tk with | some t => !t.exited | none => false) &&
    tab.all (fun z => z.keys == e.members || !z.keys.any e.members.contains)

/-! ### The cycle -/

/-- Adds to a counter of a slice (R207). -/
def Slice.count (x : Slice) (n k : Nat) : Slice := if k = 0 then x else { x with counters := Sparse.modify x.counters n 0 (· + k) }

/-- Every stitch but those that issue ages (R27). -/
def Slice.ageAll (x : Slice) (but : List Nat) : Slice :=
  { x with table := x.table.map (fun z => if but.contains z.born then z else { z with age := z.age + 1 }) }

/-- The issue cap of a slice (R297). -/
def State.issueCap (s : State) (core : Nat) : Nat :=
  let c := s.core core
  min (tcapOf (s.applied (core / 4))) (if c.det then 8 else c.pcap)

/-- The secondary stitch (R26 step 4, R29). -/
def State.secondary (s : State) (x : Slice) (p : Picked) (rest : List Stitch) : Option Picked :=
  let rp := s.bankReads x p
  (rest.map s.picked).find? (fun q =>
    q.st.members.all (fun m => !p.st.members.any (fun n => n.1 == m.1)) && (q.port == .none || q.port != p.port) &&
    !(s.bankReads x q).any (fun r => rp.any (bankClash r)))

/-- What the model keeps of a stitch that issues. -/
def Picked.issue (p : Picked) (core sl id : Nat) : Issue := ⟨id, core, sl, p.st.bslot, p.st.pc, p.st.mode, p.st.keys⟩

/-- Whether a thread has issued nothing since a re-insertion (R210). -/
def State.replayedThread (s : State) (tk : Nat) : Bool := match s.thread? tk with | some t => t.replayed | none => false

/-- An issue-permitted cycle with no extra row to complete: one or two stitches issue. -/
def State.selectIssue (s : State) (core sl : Nat) (x : Slice) : State :=
  match sortBy stitchLe x.table with
  | [] => s.setSlice core sl x
  | z :: rest =>
    let p := s.picked z
    let ps := p :: (s.secondary x p rest).toList
    let borns := ps.map (fun q : Picked => q.st.born)
    let rows := ps.foldl (fun n q => max n (q.extraRows (s.bankReads x q))) 0
    let x1 := x.ageAll borns
    let x2 := { x1 with
      table := x1.table.filter (fun z => !borns.contains z.born), latch := ps.foldl s.latchAfter x1.latch, owed := rows
      issuedNow := ps.flatMap (fun q : Picked => q.st.keys)
      replayNow := (ps.flatMap (fun q : Picked => q.st.keys)).filter s.replayedThread }
    let qs := ps.filter (·.fetched)
    let x3 := ((x2.count 1 qs.length).count 2 (qs.length - 1)).count 3 (qs.flatMap (fun q : Picked => q.st.members)).length
    let is := ps.zipIdx.map (fun c => c.1.issue core sl (s.nextId + c.2))
    let note (s : State) (z : Issue) : State :=
      z.members.foldl (fun s tk => s.modThread tk (fun t => { t with replayed := false, issued := z.id })) s
    { (is.foldl note s).setSlice core sl x3 with issueQ := s.issueQ ++ is, nextId := s.nextId + ps.length }

/-- The issued instructions of a slice that can now complete, each as the issue it came from with those of its members that have
waited; they take no issue slot. -/
def State.continues (s : State) (core sl : Nat) : State :=
  let ks := (s.sliceThreads core sl).filter (fun x =>
    !x.2.1.exited && x.2.2.runs && x.2.1.issuedWait && s.waitOver x.1 x.2.1 x.2.2)
  let key (x : Nat × Thread × Block) : Nat × Nat × BitVec 56 × Mode := (x.2.1.issued, tkSlotEntry x.1, x.2.1.pc, x.2.1.mode)
  let is : List Issue := (ks.map key).eraseDups.map (fun g =>
    ⟨g.1, core, sl, g.2.1, g.2.2.1, g.2.2.2,
      sortBy (fun a b => decide (laneOfThr (tkThr a) ≤ laneOfThr (tkThr b))) ((ks.filter (fun x => key x == g)).map (·.1))⟩)
  { s with issueQ := s.issueQ ++ is }

/-- One slice cycle. It completes a row that is owed whether or not the cap permits the cycle; only a permitted one ages stitches
(R27, R29). -/
def State.sliceStep (s0 : State) (core sl : Nat) : State :=
  let s := (s0.noteWaits core sl).continues core sl
  let ready : List Cand := (s.sliceThreads core sl).filterMap (fun x =>
    if s.isReady x.1 x.2.1 x.2.2 then some ⟨x.1, x.2.1.pc, tkSlotEntry x.1, x.2.1.mode⟩ else none)
  let old := s.slice core sl
  let tab := old.refresh ready
  let x := { tab with
    latch := tab.latch.filter (s.latchStands tab.table), cycle := old.cycle + 1, edge := s.clk, held := false, rowed := false
    issuedNow := [], replayNow := [] }
  let may := decide (old.cycle % 8 < s.issueCap core)
  let y := if may then x.count 0 1 else { x.count 7 1 with held := true }
  if old.owed > 0 then
    s.setSlice core sl { (if may then y.ageAll [] else y).count 6 1 with owed := old.owed - 1, rowed := true }
  else if may then s.selectIssue core sl y
  else s.setSlice core sl y

/-- SLICE_CYCLE (R27): one cycle of a slice; a failed slice and a fenced core have none (R441). -/
def execSliceCycle (core slice : Nat) (s : State) : Out :=
  .next (if (s.slice core slice).failed || (s.core core).fenced then s else s.sliceStep core slice)

end Sys2Proof.Machine
end

