-- ==== Sys2Proof/Machine/Power.lean ====
section
/-!
DEFINITION. The power controller (R298, R299), droop and its storms (R300, R455), throttle states and the thermal governor
(R301 to R305), sensors (R452, R453) and throttle groups (R306 to R308, R456, R457).
-/
namespace Sys2Proof.Machine

/-! ### The power controller (R298, R455) -/

/-- Controller intervals of 10 ms, in %clk cycles. -/
def ceilingTime : Nat := usCycles 10000

/-- The ceiling after an interval: a storm sets or lowers it, 10 ms without one raise it, and at 12 it is gone. -/
def nextCeiling (clk : Nat) (storm : Bool) : Option (Int × Nat) → Option (Int × Nat)
  | none => if storm then some (8, clk + ceilingTime) else none
  | some (c, t) =>
    if storm then some (max (c - 2) 4, clk + ceilingTime)
    else if clk < t then some (c, t)
    else if c + 2 ≥ 12 then none
    else some (c + 2, clk + ceilingTime)

/-- The storm count and the ceiling at the end of an interval: four intervals in a row with the clock halved for 500 ns. -/
def Core.storm (c : Core) (clk : Nat) : Core :=
  let run := if c.halvedFor ≥ 1050 then c.stormRun + 1 else 0
  { c with
    halvedFor := if c.droop then 2100 else 0
    stormRun := if run ≥ 4 then 0 else run
    ceiling := nextCeiling clk (decide (run ≥ 4)) c.ceiling }

/-- The loop of R298 with an estimate. -/
def Core.control (c : Core) (est : Nat) : Core :=
  let e : Int := (min c.budget 0x0180 : Nat) - (est : Nat)
  let i := min (max (c.integ + e) (-1024)) 1024
  let u := (e + i / 8) / 16
  let l0 := min (max (c.lvl + max (min u 1) (-4)) 1) 12
  let l := match c.ceiling with | some (h, _) => min l0 h | none => l0
  { c with
    integ := i, lvl := l
    nrat := if l ≥ 8 then (l - 4).toNat else 4
    pcap := if l ≥ 8 then 8 else l.toNat }

/-- A core's least local state: a core with a ceiling holds its site at TS2 at least (R455). -/
def State.stormFloor (s : State) (site : Nat) : Nat :=
  if (List.range 4).any (fun i => (s.core (site * 4 + i)).ceiling.isSome) then 2 else 0

/-! ### Droop (R300) -/

/-- The rest of the present interval. -/
def intervalRest (clk : Nat) : Nat := 2100 - clk % 2100

/-- When the clock returns to full, if the detector stays clear. -/
def Core.holdEnd (c : Core) : Nat := c.droopSeen + max c.drhold 100 * 21 / 10

/-- DROOP_DETECT (R300). -/
def execDroopDetect (core : Nat) (s : State) : Out :=
  .next (s.modCore core (fun c =>
    { c with droop := true, droopSeen := s.clk
             halvedFor := if c.droop then c.halvedFor else c.halvedFor + intervalRest s.clk }))

/-- DROOP_HOLD_EXPIRY (R300): the detector has stayed clear for the hold time. -/
def execDroopHoldExpiry (core : Nat) (s : State) : Out :=
  .next (s.modCore core (fun c =>
    if c.droop ∧ c.holdEnd ≤ s.clk then { c with droop := false, halvedFor := c.halvedFor - intervalRest s.clk } else c))

/-! ### Throttle states (R301 to R303) -/

/-- A(s) of Table 14.3, in 1/100,000. -/
def activityOf (st : Nat) : Nat := [100000, 100000, 88750, 88750, 77500, 71875, 38750].getD st 5625
/-- The band limit of a state's refresh rate (Table 14.4), in hundredths of a degree. -/
def limitOf (st : Nat) : Int := [8500, 9500, 9500].getD st 10500
/-- The refresh rate of a state, in multiples of the base rate (Table 14.3). -/
def refreshOf (st : Nat) : Nat := [1, 2, 2].getD st 4
/-- The refresh rate that a DRAM temperature requires (Table 14.4). -/
def refreshNeed (t : Int) : Nat := if t ≤ 8500 then 1 else if t ≤ 9500 then 2 else 4
/-- The refresh rate of a site: its state's, and never slower than the band requires (R303). -/
def Site.refresh (x : Site) : Nat := max (refreshOf x.applied) (refreshNeed x.tdram)

/-- A site's throttle state changes; entries that TS7 held back start (R302). -/
def State.setApplied (s : State) (site st : Nat) : State :=
  if (s.site site).applied = st then s
  else
    let s1 := s.modSite site (fun x => { x with applied := st })
    (List.range 4).foldl (fun s i => s.startOthers (site * 4 + i)) s1

/-- What a site applies: TS7 when forced, in a group the group state, else its local state or the floor of a device that
was cut off (R304, R306, R457). -/
def State.wantedState (s : State) (site : Nat) : Nat :=
  let x := s.site site
  if x.forced then 7
  else match s.group with
  | some g => g.state
  | none => max x.local_ s.floorState

/-- A site applies what it must. -/
def State.applyState (s : State) (site : Nat) : State := s.setApplied site (s.wantedState site)

/-- While a core of a site has a ceiling the site's local state is at least TS2 (R455). -/
def State.stormState (s : State) (site : Nat) : State :=
  if s.stormFloor site ≤ (s.site site).local_ then s
  else (s.modSite site (fun x => { x with local_ := s.stormFloor site })).applyState site

/-- POWER_CONTROLLER_INTERVAL (R298, R455): the end of an interval of 1 µs; in deterministic mode the controller is
suspended. -/
def execPowerControllerInterval (core est : Nat) (s : State) : Out :=
  .next ((s.modCore core (fun c =>
    let c1 := { (c.storm s.clk) with est := min est 0xFFFF }
    if c.det then { c1 with nrat := 8, pcap := 8 } else c1.control (min est 0xFFFF))).stormState (core / 4))

/-! ### The governor (R304, R305) -/

/-- Whether T(s) ≤ Limit(s) − h(s): T(s) = Tcool + θ × P × A(s) ÷ A(current). -/
def coolEnough (theta power : Nat) (tcool : Int) (current st : Nat) : Bool :=
  let h : Int := if st < current then 200 else 0
  decide (((theta * power * activityOf st : Nat) : Int) ≤ (limitOf st - h - tcool) * ((160 * activityOf current : Nat) : Int))

/-- The local state that the governor chooses. -/
def localChoice (theta power : Nat) (tcool tdram : Int) (current : Nat) : Nat :=
  ((List.range 7).find? (fun st => decide (tdram ≤ limitOf st) && coolEnough theta power tcool current st)).getD 7

/-- The highest local state of the sites of this device. -/
def State.topLocal (s : State) : Nat :=
  (List.range 16).foldl (fun m i => max m (if (s.site i).forced then 7 else (s.site i).local_)) 0

/-- Group time as this device measures it (R308). -/
def State.groupTime (s : State) (g : Group) : Int := s.clk + g.offset + g.error
/-- Whether a value that first reaches a live member at a group time still counts in the round: not within 20 µs of the boundary that ends
it (R456). -/
def Group.opens (g : Group) (at_ : Int) : Bool := decide (at_ + usCycles 20 ≤ g.next)
/-- The same for a value sent or received now. -/
def State.roundOpen (s : State) (g : Group) : Bool := g.opens (s.groupTime g)

/-- A device with a site forced to TS7 tells its group in the present round, so that the others follow at its boundary (R307). -/
def State.tellForced (s : State) : State :=
  match s.group with
  | some g =>
    if (List.range 16).any (fun i => (s.site i).forced) = true ∧ g.sent < 7 ∧ s.roundOpen g = true then
      { s with group := some { g with sent := 7 } }.emit (.report "round value" [s.devno, 7])
    else s
  | none => s

/-- The measured power of a site (R305, R453): a core whose current sensor has failed counts at 24 W. -/
def Site.powerOf (x : Site) (p : PowerReading) : Nat :=
  p.rest + ((List.range 4).map (fun c => match Sparse.get? x.sensors (32 + c) with
    | some y => if y.failed then 384 else p.cores.getD c 0
    | none => p.cores.getD c 0)).sum

/-- GOVERNOR_EVALUATION (R305, R295): at a whole multiple of 210,000 of %clk, with the readings of that cycle and the power of
the 100 µs before it; `moves` are the migrations that the governor asks for, of blocks of its own site. -/
def execGovernorEvaluation (site : Nat) (tcool tdram : Int) (measured : PowerReading) (moves : List (Nat × Nat × Nat)) (s : State) : Out :=
  .next (if s.clk % 210000 ≠ 0 ∨ (s.site site).fenced then s
    else
      let x := s.site site
      let power := x.powerOf measured
      let choice := localChoice (Config.theta site) power tcool tdram x.applied
      let least := max (s.stormFloor site) (if x.noTrust then 6 else 0)
      let s1 := { s with cool := tcool }.setSite site
        { x with local_ := max choice least, tdram := tdram, power := power, forced := decide (tdram > 10500) }
      (moves.filter (fun m => m.1 / 4 == site)).foldl State.migrate (s1.applyState site).tellForced)

/-- DRAM_OVERTEMP (R304): a reading above 105 °C forces TS7 at once. -/
def execDramOvertemp (site : Nat) (tdram : Int) (s : State) : Out :=
  .next (if tdram ≤ 10500 then s
    else (s.modSite site (fun x => { x with tdram := tdram, local_ := 7, forced := true })).applyState site |>.tellForced)

/-! ### Sensors (R452, R453) -/

/-- The neighbours of a sensor, of its own kind. -/
def neighbours (k : Nat) : List Nat :=
  let b := k / 16 * 16
  let u := k % 16 / 4
  let i := k % 4
  [b + 4 * u + (i + 1) % 4, b + 4 * u + (i + 3) % 4, b + 4 * (u ^^^ 1) + i]

/-- The largest of some numbers. -/
def maxOf : List Int → Option Int
  | [] => none
  | x :: r => match maxOf r with | some y => some (max x y) | none => some x
/-- The smallest of some numbers. -/
def minOf : List Int → Option Int
  | [] => none
  | x :: r => match minOf r with | some y => some (min x y) | none => some x

/-- The median of up to three numbers; of two, their mean (log 26). -/
def medianOf (xs : List Int) : Option Int :=
  match sortBy (fun a b => decide (a ≤ b)) xs with
  | [] => none
  | [a] => some a
  | [a, b] => some ((a + b) / 2)
  | _ :: b :: _ => some b

/-- Readings that span at most 0.25 °C over 50 ms while the power changed by 10% or more. -/
def stuckTest (history : List Int) (power : List Nat) : Bool :=
  match maxOf history, minOf history with
  | some a, some b =>
    let p := power.foldl max 0
    let q := power.foldl min p
    decide (history.length ≥ 50) && decide (a - b ≤ 25) && decide (10 * (p - q) ≥ q) && decide (p ≠ q)
  | _, _ => false

/-- A reading outside −20 °C to 150 °C. -/
def outOfRange (t : Int) : Bool := decide (t < -2000) || decide (t > 15000)

/-- The value that stands for a sensor's reading (R452), by which sensors have failed and which deviate in pairs: of a pair the higher
one, of a failed one the highest of its trusted neighbours and 5 °C. -/
def sensorValue (rd : Nat → Int) (failed paired : Nat → Bool) (k : Nat) : Option Int :=
  if paired k then maxOf (rd k :: ((neighbours k).filter paired).map rd)
  else if failed k then (maxOf (((neighbours k).filter (fun j => !failed j && !paired j)).map rd)).map (· + 500)
  else some (rd k)

/-- A core's current sensor after a test (R453): below 0 A, above 150 A, or stuck, where its readings span at most 0.25 A (log 26). -/
def testCurrent (old : Option Sensor) (power : List Nat) (amps : Int) : Sensor :=
  let was := old.getD ⟨[], false, false, none⟩
  let hist := (amps :: was.history).take 50
  ⟨hist, was.failed || decide (amps < 0) || decide (amps > 15000) || stuckTest hist power, false, some amps⟩

/-- The state of every sensor after a test, from the readings: 16 DRAM and 16 logic sensors, and the cores' four current sensors. -/
def testSensors (old : Sparse Sensor) (power : List Nat) (readings : List Int) : Sparse Sensor :=
  let rd (k : Nat) : Int := readings.getD k 0
  let was (k : Nat) : Sensor := Sparse.getD old k ⟨[], false, false, none⟩
  let hist (k : Nat) : List Int := (rd k :: (was k).history).take 50
  let bad (k : Nat) : Bool := (was k).failed || outOfRange (rd k) || stuckTest (hist k) power
  let use0 (k : Nat) : Option Int :=
    if !bad k then some (rd k)
    else (maxOf ((neighbours k).filterMap (fun j => if bad j then none else some (rd j)))).map (· + 500)
  let off (k : Nat) : Bool := !bad k && (match medianOf ((neighbours k).filterMap use0) with
    | some m => decide ((rd k - m).natAbs > 1500)
    | none => false)
  let failed (k : Nat) : Bool := bad k || (off k && !(neighbours k).any off)
  let paired (k : Nat) : Bool := off k && (neighbours k).any off
  (List.range 32).map (fun k => (k, ⟨hist k, failed k, paired k, sensorValue rd failed paired k⟩)) ++
    (List.range 4).map (fun c => (32 + c, testCurrent (Sparse.get? old (32 + c)) power (rd (32 + c))))

/-- The DRAM temperature of a site from its sensors' readings in a cycle (R304, R452). -/
def Site.dramTemp (x : Site) (readings : List Int) : Int :=
  let is (p : Sensor → Bool) (k : Nat) : Bool := match Sparse.get? x.sensors k with | some y => p y | none => false
  (maxOf ((List.range 16).filterMap (sensorValue (fun k => readings.getD k 0) (is (·.failed)) (is (·.paired))))).getD x.tdram

/-- The coolant temperature from the two inlet sensors, and whether neither can be used: the higher one (log 26). -/
def coolantOf (c : Int × Int) : Int × Bool :=
  match outOfRange c.1, outOfRange c.2 with
  | true, true => (5500, true)
  | true, false => (c.2, false)
  | false, true => (c.1, false)
  | false, false => (max c.1 c.2, false)

/-- SENSOR_TEST (R452, R453): the 1 ms test of a site's 16 DRAM and 16 logic sensors, of its cores' current sensors and of the inlet
sensors. -/
def execSensorTest (site : Nat) (readings : List Int) (power : PowerReading) (cool : Int × Int) (s : State) : Out :=
  let x := s.site site
  let ps := (x.powerOf power :: x.powerHist).take 50
  let ss := testSensors x.sensors ps readings
  let dram := ss.filter (fun c => decide (c.1 < 16))
  let trust := dram.any (fun c => !c.2.failed && !c.2.paired)
  let tdram := (maxOf (dram.filterMap (fun c => c.2.used))).getD x.tdram
  let (tcool, fail) := coolantOf cool
  let s1 := { s with cool := tcool }.setSite site
    { x with sensors := ss, powerHist := ps, tdram := tdram, coolFail := fail, noTrust := !trust
             forced := x.forced || decide (tdram > 10500)
             local_ := if tdram > 10500 then 7 else if trust then x.local_ else max x.local_ 6 }
  let s2 := if !trust && !x.noTrust then s1.emit (.report "no trusted DRAM sensor" [site]) else s1
  .next (s2.applyState site).tellForced

/-! ### Throttle groups (R306 to R308, R456, R457) -/

/-- Changes every site. -/
def State.modSites (s : State) (g : Site → Site) : State := (List.range 16).foldl (fun s i => s.modSite i g) s
/-- Every site applies what it must. -/
def State.applyAll (s : State) : State := (List.range 16).foldl State.applyState s

/-- The residual error of a measurement, at most 1 µs (R308). -/
def measured (k : Nat) : Int := max (-2100) (min 2100 (Config.offsetError k))

/-- THROTTLE_GROUP_ASSIGNMENT (R306 to R308): this device joins the group that names it, else it is in none. The member of lowest
number leads; the sites of a new member keep their state until the first boundary, and its value of the round is sent. -/
def execThrottleGroupAssignment (gid : Nat) (devs : List Nat) (offset : Int) (s : State) : Out :=
  let s1 := { s.modSites (fun x => { x with silent := false }) with floorState := 0 }
  .next (if devs.contains s.devno then
      let others := (devs.filter (· != s.devno)).eraseDups
      let top := (List.range 16).foldl (fun m i => max m (s.site i).applied) 0
      let leader := others.foldl min s.devno
      let off := if leader = s.devno then 0 else offset
      let err := if leader = s.devno then 0 else measured s.fresh
      let g : Group :=
        { gid := gid % 255, members := others.map (fun d => ⟨d, 0, none, 0⟩), leader := leader, offset := off, error := err
          next := ((s.clk + off + err) / 210000 + 1) * 210000, state := top, sent := s.topLocal }
      { s1 with group := some g, fresh := s.fresh + 1 }.emit (.report "round value" [s.devno, s.topLocal])
    else { s1 with group := none }.applyAll)

/-- ROUND_VALUE_RECEIVED (R307, R456): a member's value of the round is kept and relayed, unless it first reached a member, this one or,
where it comes by a relay, the one and the group time that the relay tells, within 20 µs of the round's end; a second one counts
where it is higher, as that of a member forced to TS7 is. -/
def execRoundValueReceived (dev : Nat) (value : RoundValue) (s : State) : Out :=
  .next (match s.group with
    | none => s
    | some g =>
      let v := min value.value 7
      let news (m : Member) : Bool := m.dev == dev && (match m.now with | some w => decide (w < v) | none => true)
      if !g.opens (value.relayed.getD (s.groupTime g)) || decide (g.next ≤ s.groupTime g) || !g.members.any news then s
      else
        { s with group := some { g with members := g.members.map (fun m => if news m then { m with now := some v } else m) } }.emit
          (.report "round value" [dev, v]))

/-- What a member counts for: its value of the round, or its last one (R457). -/
def Member.counts (m : Member) : Nat := m.now.getD m.last
/-- A member after a boundary. -/
def Member.passed (m : Member) : Member :=
  { m with last := m.counts, now := none, missing := if m.now.isSome then 0 else m.missing + 1 }

/-- A group at a boundary whose live members are given (R308, R457): the next boundary is 100 µs later in group time; where the leader
has left, the remaining member of lowest number leads, and its own count carries group time on; the others measure anew. -/
def Group.nextRound (g : Group) (me fresh : Nat) (live : List Member) (st sent : Nat) : Group :=
  let leader := if g.leader = me ∨ live.any (fun m => m.dev == g.leader) = true then g.leader else (live.map (·.dev)).foldl min me
  { g with
    members := live, leader := leader, next := g.next + 210000, state := st, sent := sent
    offset := if leader = me then g.offset + g.error else g.offset
    error := if leader = me then 0 else measured fresh }

/-- THROTTLE_ROUND_BOUNDARY (R307, R308, R457): a round ends; members missing for three rounds are removed, or this device is cut
off; else the maximum of the round is applied, and the next round's value is sent. -/
def execThrottleRoundBoundary (s : State) : Out :=
  .next (match s.group with
    | none => s
    | some g =>
      let ms := g.members.map Member.passed
      if s.groupTime g < g.next then s
      else
        let live := ms.filter (fun m => decide (m.missing < 3))
        let quiet (s : State) : State := s.modSites (fun x => { x with silent := true })
        if ms ≠ [] ∧ live = [] then
          (quiet { s with group := none, floorState := g.state }).applyAll.emit (.report "cut off from throttle group" [g.gid])
        else
          let st := (live.map (·.last)).foldl max g.sent
          let sent := s.topLocal
          let s1 := { s with group := some (g.nextRound s.devno s.fresh live st sent), fresh := s.fresh + 1 }
          let s2 := (s1.modSites (fun x => { x with group := st })).applyAll
          let s3 := if live.length < ms.length then
              (quiet s2).emit (.report "throttle group member removed" ((ms.filter (fun m => decide (m.missing ≥ 3))).map (·.dev)))
            else s2
          s3.emit (.report "round value" [s.devno, sent]))

end Sys2Proof.Machine
end

