-- ==== Sys2Proof/Machine/Sampler.lean ====
section
/-!
DEFINITION. The slice samplers (R208 to R211, R345).
-/
namespace Sys2Proof.Machine

/-- Where a resident thread stands in the order of R209: slot, then lane. -/
def samplePos (tk : Nat) (b : Block) : Nat := (tkThr tk / 192 + b.slotb) * 32 + laneOfThr (tkThr tk)

/-- The thread that a slice samples at a tick: the next resident one after its pointer, wrapping; one that has exited is not
resident (R345). -/
def State.sampleNext (s : State) (core sl : Nat) : Option (Nat × Thread × Block) :=
  let ts := sortBy (fun a b => decide (samplePos a.1 a.2.2 ≤ samplePos b.1 b.2.2))
    ((s.sliceThreads core sl).filter (fun x => !x.2.1.exited))
  let after := match (s.slice core sl).sampled with
    | some p => ts.find? (fun x => decide (p < samplePos x.1 x.2.2))
    | none => none
  match after with | some x => some x | none => ts.head?

/-- Whether a thread waits for a register (reason 2). -/
def State.waitsRegister (s : State) (tk : Nat) (t : Thread) (b : Block) : Bool :=
  t.windowClosed || t.wait == .refill || t.wait == .closing ||
    (t.wait == .none && (nextTrap t).isNone && !s.resultsReady tk t b)

/-- REASON of a thread that did not issue and is in user mode, by what it waits for (Table 9.9); where no row applies, as for a thread of
a block that is halted or pre-empted, 1 (log 30). -/
def Thread.waitReason (t : Thread) : Nat :=
  match t.wait with
  | .branch _ | .specEnd | .specPort => 11
  | .bar _ _ | .flags | .release _ => 4
  | .bwait _ _ _ _ _ => 5
  | .seam _ _ => 6
  | .sleep | .yielded _ => 13
  | .stwait _ | .fence _ | .operand | .marker | .serial | .effect .. | .dataWalk _ | .access => 7
  | .matrixRoom _ | .mates _ | .matrixEntry _ _ => 8
  | .walk _ => 10
  | _ => 1

/-- REASON (R211): the first row of Table 9.9 that applies. -/
def State.sampleReason (s : State) (tk : Nat) (t : Thread) (b : Block) (x : Slice) : Nat :=
  let now := x.edge == s.clk
  if now && x.issuedNow.contains tk then 0
  else if t.mode = .trap then 14
  else if now && x.held then 12
  else if now && x.rowed then 3
  else match t.wait with
  | .replay _ => if t.replayed then 9 else 11
  | .branch _ | .specEnd | .specPort => 11
  | .walk _ => 10
  | _ => if s.waitsRegister tk t b then 2 else t.waitReason

/-- Where a thread goes from an instruction that has issued and is still to complete: to the target of a call that waits for its spill,
or in sequence. -/
def State.pcAfter (s : State) (tk : Nat) (t : Thread) (b : Block) : BitVec 56 :=
  match s.peek tk t b with
  | some (c, f) =>
    if Op.ofCode c = some .call then relTarget t.pc f
    else if Op.ofCode c = some .calli then BitVec.ofNat 56 (opndA .calli t b f)
    else if Op.ofCode c = some .ret then (Sparse.getD t.ret t.depth 0).setWidth 56
    else pcNext t.pc
  | none => pcNext t.pc

/-- The PC field: the next instruction's; an instruction that has issued and is still to complete is not the next one (R210, R345;
log 30). -/
def State.samplePc (s : State) (tk : Nat) (t : Thread) (b : Block) : BitVec 56 :=
  match t.wait with
  | .bar _ _ => pcNext t.pc
  | .refill => t.pc
  | .dataWalk _ => s.pcAfter tk t b
  | _ => if t.issuedWait then s.pcAfter tk t b else t.pc

/-- A sample record (Table 9.8). -/
def State.sampleRecord (s : State) (tk : Nat) (t : Thread) (b : Block) (sl : Nat) : List Byte :=
  let x := s.slice (tkCore tk) sl
  let reason := s.sampleReason tk t b x
  let iss := x.edge == s.clk && x.issuedNow.contains tk
  let rpl := reason == 9 || (iss && x.replayNow.contains tk)
  leBytes 16 ((s.samplePc tk t b).toNat + lowSkein t.skeins * 2 ^ 56 + bit1 iss * 2 ^ 60 + bit1 rpl * 2 ^ 61 +
    s.clk % 2 ^ 40 * 2 ^ 64 + reason * 2 ^ 104 + laneOfThr (tkThr tk) * 2 ^ 110 + sl * 2 ^ 115 + tkSlotEntry tk * 2 ^ 118)

/-- The record is dropped where the ring is full, else written at its place, and WR rises (R209 steps 3 to 5). -/
def State.placeSample (s : State) (core : Nat) (bs : List Byte) : State :=
  let c := s.core core
  if (c.smpWr + 2 ^ 32 - c.smpRd) % 2 ^ 32 ≥ c.smpSize then
    s.setCore core { c with smpDrop := min (c.smpDrop + 1) (2 ^ 32 - 1) }
  else
    (s.engWriteRun (core / 4) (c.smpBase + 16 * (c.smpWr % c.smpSize)) false bs []).modCore core
      (fun c => { c with smpWr := (c.smpWr + 1) % 2 ^ 32 })

/-- One slice's part of a tick. -/
def State.sampleSlice (s : State) (core sl : Nat) : State :=
  if !(s.core core).slmask.getLsbD sl then s
  else match s.sampleNext core sl with
  | none => s
  | some (tk, t, b) =>
    (s.placeSample core (s.sampleRecord tk t b sl)).modSlice core sl (fun x => { x with sampled := some (samplePos tk b) })

/-- SAMPLER_TICK (R209): the enabled slices write in ascending order; ticks stop from the cycle after EN was cleared (R369). -/
def execSamplerTick (core : Nat) (s : State) : Out :=
  .next (if (s.core core).en || (s.core core).offAt == some s.clk then (List.range 6).foldl (fun s sl => s.sampleSlice core sl) s else s)

end Sys2Proof.Machine
end

