-- ==== Sys2Proof/Machine/Shake.lean ====
section
/-!
DEFINITION. SHAKE256 with 64 bytes of output, the digest of images and reports (R319): Keccak-f[1600] with a rate of 136 bytes, as
FIPS 202 defines the function that the rule names (PRESUMED, log 69).
-/
namespace Sys2Proof.Machine

/-- Rotation offsets of the lanes, by x + 5y. -/
def keccakRot : List Nat := [0, 1, 62, 28, 27, 36, 44, 6, 55, 20, 3, 10, 43, 25, 39, 41, 45, 15, 21, 8, 18, 2, 61, 56, 14]

/-- Constants of the 24 rounds. -/
def keccakConst : List (BitVec 64) :=
  [0x0000000000000001, 0x0000000000008082, 0x800000000000808A, 0x8000000080008000, 0x000000000000808B, 0x0000000080000001,
   0x8000000080008081, 0x8000000000008009, 0x000000000000008A, 0x0000000000000088, 0x0000000080008009, 0x000000008000000A] ++
  [0x000000008000808B, 0x800000000000008B, 0x8000000000008089, 0x8000000000008003, 0x8000000000008002, 0x8000000000000080,
   0x000000000000800A, 0x800000008000000A, 0x8000000080008081, 0x8000000000008080, 0x0000000080000001, 0x8000000080008008]

/-- A lane of a state. -/
def laneAt (a : List (BitVec 64)) (i : Nat) : BitVec 64 := a.getD i 0

/-- One round on 25 lanes: columns, rotation and transposition, rows, constant. -/
def keccakRound (a : List (BitVec 64)) (k : BitVec 64) : List (BitVec 64) :=
  let c := (List.range 5).map (fun x => laneAt a x ^^^ laneAt a (x + 5) ^^^ laneAt a (x + 10) ^^^ laneAt a (x + 15) ^^^ laneAt a (x + 20))
  let d := (List.range 5).map (fun x => laneAt c ((x + 4) % 5) ^^^ (laneAt c ((x + 1) % 5)).rotateLeft 1)
  let t := (List.range 25).map (fun i => laneAt a i ^^^ laneAt d (i % 5))
  let b := (List.range 25).map (fun j =>
    let i := (j % 5 + 3 * (j / 5)) % 5 + 5 * (j % 5)
    (laneAt t i).rotateLeft (keccakRot.getD i 0))
  (List.range 25).map (fun i =>
    let row (n : Nat) : BitVec 64 := laneAt b ((i % 5 + n) % 5 + 5 * (i / 5))
    (row 0 ^^^ (~~~(row 1) &&& row 2)) ^^^ (if i = 0 then k else 0))

/-- The permutation. -/
def keccakF (a : List (BitVec 64)) : List (BitVec 64) := keccakConst.foldl keccakRound a

/-- A message with the padding of SHAKE256, in whole blocks of 136 bytes. -/
def shakePad (bs : List Byte) : List Byte :=
  match 136 - bs.length % 136 with
  | 0 | 1 => bs ++ [0x9F]
  | n + 2 => bs ++ [0x1F] ++ List.replicate n 0 ++ [0x80]

/-- Absorbs one block. -/
def shakeAbsorb (a : List (BitVec 64)) (block : List Byte) : List (BitVec 64) :=
  keccakF (a.zipIdx.map (fun x => if x.2 < 17 then x.1 ^^^ BitVec.ofNat 64 (leNat ((block.drop (8 * x.2)).take 8)) else x.1))

/-- SHAKE256 with 64 bytes of output, the first byte lowest. -/
def shake256 (bs : List Byte) : BitVec 512 :=
  let m := shakePad bs
  let a := (List.range (m.length / 136)).foldl (fun a i => shakeAbsorb a ((m.drop (136 * i)).take 136)) (List.replicate 25 0)
  BitVec.ofNat 512 (leNat ((a.take 8).flatMap (fun x => leBytes 8 x.toNat)))

end Sys2Proof.Machine
end

