-- ==== Sys2Proof/Machine/Start.lean ====
section
/-!
DEFINITION. Starts and attestation (R318, R319, R459, R460).
-/
namespace Sys2Proof.Machine

/-- What the model counts goes on through a start, and what has left the device has left it. -/
def State.carried (s base : State) : State :=
  { base with out := s.out, nextId := s.nextId, fresh := s.fresh, failedStarts := s.failedStarts, failures := s.failures }

/-- What a warm start keeps (R318): DRAM with every dirty line written back, and the state that gives it its meaning. -/
def State.keptWarm (s : State) : State :=
  let w := s.lines.foldl (fun s l => s.writeBack l.1) s
  let site (x : Site) : Site :=
    { Site.reset with
      modes := x.modes, smask0 := x.smask0, fmask0 := x.fmask0, gen0 := x.gen0, smask1 := x.smask1, fmask1 := x.fmask1
      gen1 := x.gen1, rthresh := x.rthresh, wthresh := x.wthresh }
  s.carried { State.reset with
    mem := w.mem, poison := w.poison, quads := w.quads, devno := s.devno, asidbase := s.asidbase, routes := s.routes
    filter := s.filter, measure := s.measure, starts := s.starts
    sites := s.sites.map (fun c => (c.1, site c.2))
    cores := s.cores.map (fun c => (c.1, { Core.reset with quotas := c.2.quotas, quotaSel := c.2.quotaSel, quotaRefused := c.2.quotaRefused })) }

/-- The row of Table 25.5 by which a start fails at a step, from 1 for the fuse array. -/
def startCause (step : Nat) : Nat := [0, 1, 3, 5, 6, 7].getD step 0

/-- A failed start (R459) leaves what `base` keeps, and nothing runs. After a failure of step 4 the measurements are gone, so that the next
start that succeeds is a cold one. What has failed is kept for the recovery image's report (R460). -/
def State.startFailed (base : State) (step site : Nat) : State :=
  { base with
    held := true, measure := if step = 4 then [] else base.measure, failedStarts := base.failedStarts + 1
    failures := base.failures ++ [(step, site, startCause step)] }

/-- What a cold start that fails leaves (R318, R459). -/
def State.keptCold (s : State) : State :=
  s.carried { State.reset with
    mem := s.mem, poison := s.poison, quads := s.quads, devno := s.devno, measure := s.measure, starts := s.starts }

/-- The digest of an image (R319). -/
def Image.digest (i : Image) : BitVec 512 := shake256 i.bytes
/-- Whether an image carries the root key's signature over its digest (R319). -/
def Image.verifies (i : Image) : Bool := Config.rootVerifies i.digest i.signature

/-- The recovery image boots and reports each failed start, with its step, its site and its cause, or the package stays in reset
(R460). -/
def State.bootRecovery (s : State) (i : StartInfo) : State :=
  if i.recovery.verifies then
    { s.carried State.reset with recovery := true, devno := s.devno, measure := [i.recovery.digest] }.emit
      (.report "failed starts" (s.failedStarts :: s.failures.flatMap (fun (x : Nat × Nat × Nat) => [x.1, x.2.1, x.2.2])))
  else { s.carried State.reset with held := true, bootFailed := true, devno := s.devno }

/-- A unit as a report names it: its kind by the order of StartUnit, and its numbers. -/
def StartUnit.named : StartUnit → List Nat
  | .core c => [0, c, 0]
  | .l2 i n => [1, i, n]
  | .vault i v => [2, i, v]
  | .channel i v => [3, i, v]
  | .copy c e => [4, c, e]
  | .matrix c => [5, c, 0]
  | .near i u => [6, i, u]
  | .att i => [7, i, 0]
  | .site i => [8, i, 0]

/-- A start that completes step 6: the bad units are fenced and reported, control stores and customer routines are loaded. -/
def State.completeStart (s : State) (i : StartInfo) : State :=
  let s1 := i.bad.foldl State.fenceStart { s with routines := i.routines, microcode := i.microcode.take 256, failedStarts := 0, failures := [] }
  if i.bad = [] then s1 else s1.emit (.report "units fenced at start" (i.bad.flatMap StartUnit.named))

/-- The first step at which a start fails (Table 25.5) with the site, if one does: what it finds, site 0's controller, or its images at
step 4. -/
def StartInfo.failsAt (i : StartInfo) (imagesOk : Bool) : Option (Nat × Nat) :=
  (i.failedStep.toList ++ (if i.bad.contains (.site 0) then [(2, 0)] else []) ++ (if imagesOk then [] else [(4, 0)])).foldl
    (fun (acc : Option (Nat × Nat)) (x : Nat × Nat) => match acc with | some y => some (if x.1 < y.1 then x else y) | none => some x) none

/-- COLD_START (R318, R319, R459, R460): every image is verified, every register takes its reset value, and MEASURE is written and
locked. -/
def execColdStart (info : StartInfo) (s : State) : Out :=
  .next (if s.failedStarts ≥ 3 then s.bootRecovery info
    else match info.failsAt (info.images.all Image.verifies) with
    | some (k, i) => s.keptCold.startFailed k i
    | none =>
      (s.carried { State.reset with
        devno := info.devno, routes := info.routes, measure := (info.images.take 16).map Image.digest }).completeStart info)

/-- WARM_START (R318, R459, R460): DRAM and its meaning are kept, and every image's digest is compared with MEASURE. -/
def execWarmStart (info : StartInfo) (s : State) : Out :=
  .next (if s.failedStarts ≥ 3 then s.bootRecovery info
    else match info.failsAt (info.images.map Image.digest == s.measure) with
    | some (k, i) => s.keptWarm.startFailed k i
    | none => ({ s.keptWarm with starts := s.starts + 1 }).completeStart info)

/-- What a package does with a step while it is held in reset: a start, or, once the recovery image has not verified, a fixed answer to a
management message (R460); nothing else takes place. -/
def State.heldStep (s : State) : Instr → Option Out
  | .startCommand _ | .throttleGroupAssignment .. => if s.bootFailed then some (.next (s.emit (.report "package failure" []))) else none
  | .coldStart _ | .warmStart _ => none
  | _ => some (.next s)

/-- START_COMMAND (R311, R460): the package goes into reset for a start; only a cold one leaves recovery, and sets the count of
failed starts to 0. -/
def execStartCommand (cold : Bool) (s : State) : Out :=
  .next (if s.recovery then
      (if cold then { s with recovery := false, failedStarts := 0, failures := [], held := true, issueQ := [] } else s)
    else { s with held := true, issueQ := [] })

/-- The bytes of a report before the signature (Table 15.3). -/
def State.reportBytes (s : State) (nonce : List Byte) : List Byte :=
  leBytes 32 (leNat (nonce.take 32)) ++ leBytes 2 s.devno ++ leBytes 2 s.measure.length ++ leBytes 4 s.starts ++
    leBytes 8 Config.serial.toNat ++ leBytes 16 0 ++ s.measureBytes

/-- The identity key pair, generated from SHAKE256 of the fused secret, the same at every start (R319). -/
def identityKey : Nat := Config.falconKey (shake256 Config.deviceSecret)

/-- ATTESTATION (R319): the report leaves the device, signed with the identity key over SHAKE256 of its bytes. -/
def execAttestation (nonce : List Byte) (s : State) : Out :=
  let bs := s.reportBytes nonce
  .next (s.emit (.attest (bs ++ leBytes 1280 (Config.falconSign identityKey (shake256 bs)).toNat)))

end Sys2Proof.Machine
end

