-- ==== Sys2Proof/Machine/Dispatch.lean ====
section
/-!
DEFINITION. One arm for each row of the table of operations and events: a direct call of its meaning.
-/
namespace Sys2Proof.Machine

/-- What one step of the machine does. -/
def exec (i : Instr) (s : State) : Host.Outcome State Fault Refusal :=
  match i with
  | .nop f => Sys2Proof.Machine.execNop f s
  | .iadd f => Sys2Proof.Machine.execIadd f s
  | .isub f => Sys2Proof.Machine.execIsub f s
  | .imul f => Sys2Proof.Machine.execImul f s
  | .imulhi f => Sys2Proof.Machine.execImulhi f s
  | .imad f => Sys2Proof.Machine.execImad f s
  | .imin f => Sys2Proof.Machine.execImin f s
  | .imax f => Sys2Proof.Machine.execImax f s
  | .iabs f => Sys2Proof.Machine.execIabs f s
  | .lea f => Sys2Proof.Machine.execLea f s
  | .icmp f => Sys2Proof.Machine.execIcmp f s
  | .sel f => Sys2Proof.Machine.execSel f s
  | .and f => Sys2Proof.Machine.execAnd f s
  | .or f => Sys2Proof.Machine.execOr f s
  | .xor f => Sys2Proof.Machine.execXor f s
  | .andn f => Sys2Proof.Machine.execAndn f s
  | .shl f => Sys2Proof.Machine.execShl f s
  | .shr f => Sys2Proof.Machine.execShr f s
  | .sha f => Sys2Proof.Machine.execSha f s
  | .shf f => Sys2Proof.Machine.execShf f s
  | .bfx f => Sys2Proof.Machine.execBfx f s
  | .bfi f => Sys2Proof.Machine.execBfi f s
  | .popc f => Sys2Proof.Machine.execPopc f s
  | .clz f => Sys2Proof.Machine.execClz f s
  | .brev f => Sys2Proof.Machine.execBrev f s
  | .perm f => Sys2Proof.Machine.execPerm f s
  | .plop f => Sys2Proof.Machine.execPlop f s
  | .mov f => Sys2Proof.Machine.execMov f s
  | .movsr f => Sys2Proof.Machine.execMovsr f s
  | .ldkx f => Sys2Proof.Machine.execLdkx f s
  | .isad f => Sys2Proof.Machine.execIsad f s
  | .imulw f => Sys2Proof.Machine.execImulw f s
  | .fadd f => Sys2Proof.Machine.execFadd f s
  | .fsub f => Sys2Proof.Machine.execFsub f s
  | .fmul f => Sys2Proof.Machine.execFmul f s
  | .ffma f => Sys2Proof.Machine.execFfma f s
  | .fmin f => Sys2Proof.Machine.execFmin f s
  | .fmax f => Sys2Proof.Machine.execFmax f s
  | .fabs f => Sys2Proof.Machine.execFabs f s
  | .fneg f => Sys2Proof.Machine.execFneg f s
  | .fcmp f => Sys2Proof.Machine.execFcmp f s
  | .fset f => Sys2Proof.Machine.execFset f s
  | .fclass f => Sys2Proof.Machine.execFclass f s
  | .frnd f => Sys2Proof.Machine.execFrnd f s
  | .fdiv f => Sys2Proof.Machine.execFdiv f s
  | .fsqrt f => Sys2Proof.Machine.execFsqrt f s
  | .frcp f => Sys2Proof.Machine.execFrcp f s
  | .frsq f => Sys2Proof.Machine.execFrsq f s
  | .fexp2 f => Sys2Proof.Machine.execFexp2 f s
  | .flog2 f => Sys2Proof.Machine.execFlog2 f s
  | .fsinpi f => Sys2Proof.Machine.execFsinpi f s
  | .fcospi f => Sys2Proof.Machine.execFcospi f s
  | .fscl f => Sys2Proof.Machine.execFscl f s
  | .fcpys f => Sys2Proof.Machine.execFcpys f s
  | .fgete f => Sys2Proof.Machine.execFgete f s
  | .fgetm f => Sys2Proof.Machine.execFgetm f s
  | .fsat f => Sys2Proof.Machine.execFsat f s
  | .hadd2 f => Sys2Proof.Machine.execHadd2 f s
  | .hsub2 f => Sys2Proof.Machine.execHsub2 f s
  | .hmul2 f => Sys2Proof.Machine.execHmul2 f s
  | .hfma2 f => Sys2Proof.Machine.execHfma2 f s
  | .hmin2 f => Sys2Proof.Machine.execHmin2 f s
  | .hmax2 f => Sys2Proof.Machine.execHmax2 f s
  | .hcmp2 f => Sys2Proof.Machine.execHcmp2 f s
  | .hdot2 f => Sys2Proof.Machine.execHdot2 f s
  | .cvtf f => Sys2Proof.Machine.execCvtf f s
  | .cvtfi f => Sys2Proof.Machine.execCvtfi f s
  | .cvtif f => Sys2Proof.Machine.execCvtif f s
  | .cvtf8 f => Sys2Proof.Machine.execCvtf8 f s
  | .cvt8f f => Sys2Proof.Machine.execCvt8f f s
  | .pk8 f => Sys2Proof.Machine.execPk8 f s
  | .unpk8 f => Sys2Proof.Machine.execUnpk8 f s
  | .pk16 f => Sys2Proof.Machine.execPk16 f s
  | .unpk16 f => Sys2Proof.Machine.execUnpk16 f s
  | .cvtsf8 f => Sys2Proof.Machine.execCvtsf8 f s
  | .habs2 f => Sys2Proof.Machine.execHabs2 f s
  | .hclass2 f => Sys2Proof.Machine.execHclass2 f s
  | .ipk16 f => Sys2Proof.Machine.execIpk16 f s
  | .idot4 f => Sys2Proof.Machine.execIdot4 f s
  | .iadd2 f => Sys2Proof.Machine.execIadd2 f s
  | .imin2 f => Sys2Proof.Machine.execImin2 f s
  | .imax2 f => Sys2Proof.Machine.execImax2 f s
  | .bra f => Sys2Proof.Machine.execBra f s
  | .jmpi f => Sys2Proof.Machine.execJmpi f s
  | .call f => Sys2Proof.Machine.execCall f s
  | .calli f => Sys2Proof.Machine.execCalli f s
  | .ret f => Sys2Proof.Machine.execRet f s
  | .exit f => Sys2Proof.Machine.execExit f s
  | .yield f => Sys2Proof.Machine.execYield f s
  | .sleep f => Sys2Proof.Machine.execSleep f s
  | .skjoin f => Sys2Proof.Machine.execSkjoin f s
  | .skleave f => Sys2Proof.Machine.execSkleave f s
  | .bar f => Sys2Proof.Machine.execBar f s
  | .vote f => Sys2Proof.Machine.execVote f s
  | .ballot f => Sys2Proof.Machine.execBallot f s
  | .shfl f => Sys2Proof.Machine.execShfl f s
  | .skred f => Sys2Proof.Machine.execSkred f s
  | .skmatch f => Sys2Proof.Machine.execSkmatch f s
  | .flags f => Sys2Proof.Machine.execFlags f s
  | .binit f => Sys2Proof.Machine.execBinit f s
  | .bexpect f => Sys2Proof.Machine.execBexpect f s
  | .barrive f => Sys2Proof.Machine.execBarrive f s
  | .bwait f => Sys2Proof.Machine.execBwait f s
  | .btest f => Sys2Proof.Machine.execBtest f s
  | .seamset f => Sys2Proof.Machine.execSeamset f s
  | .seamsign f => Sys2Proof.Machine.execSeamsign f s
  | .seamwait f => Sys2Proof.Machine.execSeamwait f s
  | .seamtest f => Sys2Proof.Machine.execSeamtest f s
  | .stwait f => Sys2Proof.Machine.execStwait f s
  | .gld f => Sys2Proof.Machine.execGld f s
  | .gst f => Sys2Proof.Machine.execGst f s
  | .sld f => Sys2Proof.Machine.execSld f s
  | .sst f => Sys2Proof.Machine.execSst f s
  | .lld f => Sys2Proof.Machine.execLld f s
  | .lst f => Sys2Proof.Machine.execLst f s
  | .pref f => Sys2Proof.Machine.execPref f s
  | .gamo f => Sys2Proof.Machine.execGamo f s
  | .gred f => Sys2Proof.Machine.execGred f s
  | .samo f => Sys2Proof.Machine.execSamo f s
  | .sred f => Sys2Proof.Machine.execSred f s
  | .gcas f => Sys2Proof.Machine.execGcas f s
  | .scas f => Sys2Proof.Machine.execScas f s
  | .fence f => Sys2Proof.Machine.execFence f s
  | .mark f => Sys2Proof.Machine.execMark f s
  | .cctl f => Sys2Proof.Machine.execCctl f s
  | .mma f => Sys2Proof.Machine.execMma f s
  | .accz f => Sys2Proof.Machine.execAccz f s
  | .accld f => Sys2Proof.Machine.execAccld f s
  | .accst f => Sys2Proof.Machine.execAccst f s
  | .rsalloc f => Sys2Proof.Machine.execRsalloc f s
  | .rsfill f => Sys2Proof.Machine.execRsfill f s
  | .rssrc f => Sys2Proof.Machine.execRssrc f s
  | .rspin f => Sys2Proof.Machine.execRspin f s
  | .rsunpin f => Sys2Proof.Machine.execRsunpin f s
  | .rsrevoke f => Sys2Proof.Machine.execRsrevoke f s
  | .rsquery f => Sys2Proof.Machine.execRsquery f s
  | .accadd f => Sys2Proof.Machine.execAccadd f s
  | .accmov f => Sys2Proof.Machine.execAccmov f s
  | .push f => Sys2Proof.Machine.execPush f s
  | .trap f => Sys2Proof.Machine.execTrap f s
  | .brk f => Sys2Proof.Machine.execBrk f s
  | .tret f => Sys2Proof.Machine.execTret f s
  | .crrd f => Sys2Proof.Machine.execCrrd f s
  | .crwr f => Sys2Proof.Machine.execCrwr f s
  | .cntrd f => Sys2Proof.Machine.execCntrd f s
  | .tlbinvWrite core v => Sys2Proof.Machine.execTlbinvWrite core v s
  | .slhashWrite site n v => Sys2Proof.Machine.execSlhashWrite site n v s
  | .rsquotaSet core v => Sys2Proof.Machine.execRsquotaSet core v s
  | .rsquotaSelect core v => Sys2Proof.Machine.execRsquotaSelect core v s
  | .smpctlWrite core v => Sys2Proof.Machine.execSmpctlWrite core v s
  | .smpbaseWrite core v => Sys2Proof.Machine.execSmpbaseWrite core v s
  | .smpsizeWrite core v => Sys2Proof.Machine.execSmpsizeWrite core v s
  | .smpwrWrite core v => Sys2Proof.Machine.execSmpwrWrite core v s
  | .smprdWrite core v => Sys2Proof.Machine.execSmprdWrite core v s
  | .smpdropWrite core v => Sys2Proof.Machine.execSmpdropWrite core v s
  | .tpcWrite tk v => Sys2Proof.Machine.execTpcWrite tk v s
  | .tvecWrite v => Sys2Proof.Machine.execTvecWrite v s
  | .controlRegisterWrite core tk num v => Sys2Proof.Machine.execControlRegisterWrite core tk num v s
  | .qcfgWrite q v => Sys2Proof.Machine.execQcfgWrite q v s
  | .qringWrite q v => Sys2Proof.Machine.execQringWrite q v s
  | .qtailWrite q v => Sys2Proof.Machine.execQtailWrite q v s
  | .qtrigWrite q v => Sys2Proof.Machine.execQtrigWrite q v s
  | .qgraphWrite q firmware v => Sys2Proof.Machine.execQgraphWrite q firmware v s
  | .frameModeWrite site index v => Sys2Proof.Machine.execFrameModeWrite site index v s
  | .bindRecordWrite core entry v => Sys2Proof.Machine.execBindRecordWrite core entry v s
  | .deviceRegisterWrite firmware pa bytes => Sys2Proof.Machine.execDeviceRegisterWrite firmware pa bytes s
  | .controlPortRegisterWrite port pa v => Sys2Proof.Machine.execControlPortRegisterWrite port pa v s
  | .controlPortRegisterRead port pa => Sys2Proof.Machine.execControlPortRegisterRead port pa s
  | .graphUpload port gid image => Sys2Proof.Machine.execGraphUpload port gid image s
  | .throttleGroupAssignment gid devs offset => Sys2Proof.Machine.execThrottleGroupAssignment gid devs offset s
  | .startCommand cold => Sys2Proof.Machine.execStartCommand cold s
  | .debuggerHalt core bslot => Sys2Proof.Machine.execDebuggerHalt core bslot s
  | .debuggerResume core bslot => Sys2Proof.Machine.execDebuggerResume core bslot s
  | .threadRecordRead tk => Sys2Proof.Machine.execThreadRecordRead tk s
  | .threadRecordWrite tk bytes => Sys2Proof.Machine.execThreadRecordWrite tk bytes s
  | .breakpointArm on => Sys2Proof.Machine.execBreakpointArm on s
  | .attestation nonce => Sys2Proof.Machine.execAttestation nonce s
  | .inboundFilterAccess port src pa act => Sys2Proof.Machine.execInboundFilterAccess port src pa act s
  | .rdmaWrite port qp va bytes imm => Sys2Proof.Machine.execRdmaWrite port qp va bytes imm s
  | .rdmaRead port qp va n => Sys2Proof.Machine.execRdmaRead port qp va n s
  | .rdmaSend port qp bytes => Sys2Proof.Machine.execRdmaSend port qp bytes s
  | .rdmaCompareAndSwap port qp va old new => Sys2Proof.Machine.execRdmaCompareAndSwap port qp va old new s
  | .rdmaFetchAndAdd port qp va b => Sys2Proof.Machine.execRdmaFetchAndAdd port qp va b s
  | .doorbellWrite port qp w => Sys2Proof.Machine.execDoorbellWrite port qp w s
  | .cpLoad core engine => Sys2Proof.Machine.execCpLoad core engine s
  | .cpStore core engine => Sys2Proof.Machine.execCpStore core engine s
  | .cpMove core engine => Sys2Proof.Machine.execCpMove core engine s
  | .nmuFill site unit => Sys2Proof.Machine.execNmuFill site unit s
  | .nmuAxpy site unit => Sys2Proof.Machine.execNmuAxpy site unit s
  | .nmuSumReduce site unit => Sys2Proof.Machine.execNmuSumReduce site unit s
  | .nmuScatterAdd site unit => Sys2Proof.Machine.execNmuScatterAdd site unit s
  | .nmuGather site unit => Sys2Proof.Machine.execNmuGather site unit s
  | .nmuReEncode site unit => Sys2Proof.Machine.execNmuReEncode site unit s
  | .nmuCustomCall site unit writes landed flags => Sys2Proof.Machine.execNmuCustomCall site unit writes landed flags s
  | .attDecode site residueOk => Sys2Proof.Machine.execAttDecode site residueOk s
  | .engineLanding id => Sys2Proof.Machine.execEngineLanding id s
  | .engineCommandComplete id => Sys2Proof.Machine.execEngineCommandComplete id s
  | .scratchpadPeerAccess id => Sys2Proof.Machine.execScratchpadPeerAccess id s
  | .homeSliceRequest id => Sys2Proof.Machine.execHomeSliceRequest id s
  | .genRetry id => Sys2Proof.Machine.execGenRetry id s
  | .walkComplete id => Sys2Proof.Machine.execWalkComplete id s
  | .longLatencyResult tk pend reg => Sys2Proof.Machine.execLongLatencyResult tk pend reg s
  | .storeAcknowledge id => Sys2Proof.Machine.execStoreAcknowledge id s
  | .branchResolution id => Sys2Proof.Machine.execBranchResolution id s
  | .sleepWake tk => Sys2Proof.Machine.execSleepWake tk s
  | .deferredReport tk cause tval tinfo => Sys2Proof.Machine.execDeferredReport tk cause tval tinfo s
  | .waitProbe p => Sys2Proof.Machine.execWaitProbe p s
  | .mmaStart core => Sys2Proof.Machine.execMmaStart core s
  | .mmaKStep core residueOk => Sys2Proof.Machine.execMmaKStep core residueOk s
  | .rsfillComplete core id => Sys2Proof.Machine.execRsfillComplete core id s
  | .accumulatorEntryComplete core id => Sys2Proof.Machine.execAccumulatorEntryComplete core id s
  | .launchBegin q => Sys2Proof.Machine.execLaunchBegin q s
  | .launchComplete id => Sys2Proof.Machine.execLaunchComplete id s
  | .graphRunBegin q => Sys2Proof.Machine.execGraphRunBegin q s
  | .graphNodeBegin run node => Sys2Proof.Machine.execGraphNodeBegin run node s
  | .blockDispatch launch places => Sys2Proof.Machine.execBlockDispatch launch places s
  | .blockEnd core bslot => Sys2Proof.Machine.execBlockEnd core bslot s
  | .quantumExpiry q => Sys2Proof.Machine.execQuantumExpiry q s
  | .contextSaveComplete core bslot ok => Sys2Proof.Machine.execContextSaveComplete core bslot ok s
  | .drainmaxExpiry core bslot => Sys2Proof.Machine.execDrainmaxExpiry core bslot s
  | .quiltReservation site launch quilt => Sys2Proof.Machine.execQuiltReservation site launch quilt s
  | .reservationClearing site => Sys2Proof.Machine.execReservationClearing site s
  | .replicationWindow site => Sys2Proof.Machine.execReplicationWindow site s
  | .samplerTick core => Sys2Proof.Machine.execSamplerTick core s
  | .powerControllerInterval core est => Sys2Proof.Machine.execPowerControllerInterval core est s
  | .droopDetect core => Sys2Proof.Machine.execDroopDetect core s
  | .droopHoldExpiry core => Sys2Proof.Machine.execDroopHoldExpiry core s
  | .governorEvaluation site tcool tdram power moves => Sys2Proof.Machine.execGovernorEvaluation site tcool tdram power moves s
  | .dramOvertemp site tdram => Sys2Proof.Machine.execDramOvertemp site tdram s
  | .throttleRoundBoundary => Sys2Proof.Machine.execThrottleRoundBoundary s
  | .roundValueReceived dev value => Sys2Proof.Machine.execRoundValueReceived dev value s
  | .sensorTest site readings power cool => Sys2Proof.Machine.execSensorTest site readings power cool s
  | .flitCrcError link failed => Sys2Proof.Machine.execFlitCrcError link failed s
  | .sliceFence site slice unreadable => Sys2Proof.Machine.execSliceFence site slice unreadable s
  | .pseudoChannelFailure site vault => Sys2Proof.Machine.execPseudoChannelFailure site vault s
  | .copyEngineFence core engine => Sys2Proof.Machine.execCopyEngineFence core engine s
  | .nmuCallTimeout site unit => Sys2Proof.Machine.execNmuCallTimeout site unit s
  | .coldStart info => Sys2Proof.Machine.execColdStart info s
  | .warmStart info => Sys2Proof.Machine.execWarmStart info s
  | .sliceCycle core slice => Sys2Proof.Machine.execSliceCycle core slice s
  | .unassignedOpcode opc f => Sys2Proof.Machine.execUnassignedOpcode opc f s
  | .scaleUpPortTimeout port => Sys2Proof.Machine.execScaleUpPortTimeout port s
  | .issueSliceFailure core slice => Sys2Proof.Machine.execIssueSliceFailure core slice s
  | .asidTeardown asid => Sys2Proof.Machine.execAsidTeardown asid s

end Sys2Proof.Machine
end

