-- ==== Sys2Proof/Machine/Issue.lean ====
section
/-!
DEFINITION. The fetch of a stitch that issues (R63, R112, R396), which gives the instruction that its members execute.
-/
namespace Sys2Proof.Machine

/-- What a fetch does to one member that gets no instruction: a trap that waited for the thread comes first, then the walk
or the fetch fault. -/
def State.fetchEnd (s : State) (tk : Nat) : State :=
  match s.thread? tk, s.block? (tkBk tk) with
  | some t, some b =>
    match nextTrap t with
    | some x => s.deliverNext tk t x
    | none =>
      match s.fetch (tkCore tk) b.asid t t.pc with
      | .word _ _ => s
      | .miss va => s.waitWalk tk b.asid va .walk
      | .fail i => (s.setThread tk { t with walkFail := none }).takeTrap tk i s.cur.id false
  | _, _ => s

/-- The members of an issue that still stand where the slice selected them. -/
def State.liveMembers (s : State) (z : Issue) : List Nat :=
  z.members.filter (fun tk => match s.thread? tk, s.block? (tkBk tk) with
    | some t, some b => !t.exited && b.runs && t.pc == z.pc && t.mode == z.mode
    | _, _ => false)

/-- The issue at the head of the queue is taken up. -/
def State.takeIssue (s : State) (z : Issue) (rest : List Issue) : State :=
  { s with issueQ := rest, cur := { z with members := s.liveMembers z } }

/-- The bytes of the instruction of the current issue, and the code lines they come from. -/
def State.curWord (s : State) : Option (List Byte × List (Nat × Bool)) :=
  match s.cur.members with
  | [] => none
  | tk :: _ => match s.thread? tk, s.block? (tkBk tk) with
    | some t, some b => match s.fetch (tkCore tk) b.asid t t.pc with
      | .word bs lines => some (bs, lines)
      | _ => none
    | _, _ => none

/-- The walks of the current issue's fetch in deterministic mode (R44). -/
def State.walkFetch (s : State) : State :=
  match s.cur.members with
  | [] => s
  | tk :: _ => match s.thread? tk, s.block? (tkBk tk) with
    | some t, some b => if t.pcTop ≠ 0 then s else s.walkDet (tkCore tk) b.asid [t.pc.toNat, (t.pc + 11#56).toNat]
    | _, _ => s

/-- The instruction that the current issue fetches, and the state in which it is executed; without one, every member walks or
traps. -/
def State.fetchWord (s : State) : Option Instr × State :=
  match s.curWord with
  | some (bs, lines) => match decode bs with
    | .ok (i, _) => (some i, s.fillCode s.cur.core lines)
    | .error _ => (none, s)
  | none => (none, s.cur.members.foldl State.fetchEnd s)

/-- The fetch of the current issue. -/
def State.fetchIssue (s : State) : Option Instr × State := s.walkFetch.fetchWord

end Sys2Proof.Machine
end

