-- ==== Sys2Proof/Machine/Placed.lean ====
section
/-!
DEFINITION. A place for one instruction (log 25): a block of one thread on core 0 whose stitch is the next to issue, with the
instruction's bytes at its PC, translated by the TLB of its core.
-/
namespace Sys2Proof.Machine

/-- The block of the helper thread: 128 registers, the largest launch, one tile, 2 MiB of scratchpad, ASID 0. -/
def helperBlock (clk : Nat) : Block :=
  { core := 0, bslot := 0, launch := 0, asid := 0, blk := 0
    desc :=
      { entry := 0, const := 0, compl := 0, tlbase := 0, nblk := 1, scratch := 2 ^ 21, mirrOfs := 0, mirrLen := 0, loc := 0, tlSets := 1
        affin := 0, restartable := false, mirrored := false, affinity := false, strict := false, quilt := 1, acc := 8, regs := 128
        ntid := 1, fps := [] }
    consts := [], slotb := 0, seamset := 0, abase := 0, accn := 8, spbase := 0, spsize := 2 ^ 21, qrank := 0, peers := [(0, 0)]
    presence := 1, orphans := 0, seams := [], flags := [], arms := [], raised := []
    phases := [(0, { Phase.empty clk with waiting := [0] })], trapSkeins := [], trapCount := 0, nodes := [], marks := 0
    halted := false, haltSent := false, stopping := false, doubleFault := false, discard := false, pause := none, skippedAt := none, born := 0
    since := clk, savedEntries := [], savedCmds := [] }

/-- The helper thread at PC 0, in user mode, with skein 0. -/
def helperThread : Thread :=
  { pc := 0, mode := .user, v := [], p := 0, h := [], tpc := 0, tcause := 0, tval := 0, tinfo := 0, depth := 0, ret := []
    skeins := 1, trapSkein := none, pst := 0, sleepAt := 0, wait := .none, waitSince := 0, pends := [], marks := [], reports := []
    trapNext := [], pendTrap := none, pendFault := none, delivers := none, refill := none, spec := none, readyAt := [], predAt := [], hb := []
    seen := [], fenced := [], ordered := [], walkFail := none, replayed := false
    bankAt := [], flagsDue := [], issued := 0, entering := 0, exited := false }

/-- The translation of the helper's page: VA 0 to PA 0, executable and writable. -/
def helperPage (devno : Nat) : TlbEntry := ⟨0, 0, 1, paOf devno 0 0 0, 0, true, true, true⟩

/-- The bytes of the instruction stand at PA 0 of this device, and the helper's stitch is the next to issue. -/
def State.placeWord (s : State) (nbits w : Nat) : State :=
  let bytes := leBytes 12 (w % 2 ^ nbits)
  { s with
    held := false
    mem := Memory.writeN s.mem (paOf s.devno 0 0 0) bytes
    lines := Sparse.erase s.lines (paOf s.devno 0 0 0 / 128)
    poison := Sparse.erase s.poison (paOf s.devno 0 0 0 / 16)
    quads := Sparse.erase s.quads (paOf s.devno 0 0 0 / 2 ^ 23)
    blocks := Sparse.set s.blocks 0 (helperBlock s.clk)
    threads := Sparse.set s.threads 0 helperThread
    cores := Sparse.set s.cores 0 { s.core 0 with tlb := [helperPage s.devno], icache := [] }
    issueQ := [⟨0, 0, 0, 0, 0, .user, [0]⟩] }

end Sys2Proof.Machine
end

