-- ==== Sys2Proof/Machine/BitErrors.lean ====
section
/-!
DEFINITION. Errors that no code corrects (R368, R404, R405, R425), wherever they fall: which entry of a register file, of DRAM, of
a dirty line, of a scratchpad, of a tile or of a slot is lost in a core cycle is a free value (log 51). Errors that are
corrected change nothing but firmware's log (R403).
-/
namespace Sys2Proof.Machine

/-- A register whose entry is lost traps at its next read (R368): cause 0x14 with ORIGIN 0. -/
def Thread.registerError (t : Thread) (r : Option Nat) : Thread :=
  { t with marks := match r with | some i => if i < 128 then Sparse.set t.marks i ⟨0x14, 0⟩ else t.marks | none => t.marks }

/-- A granule of a dirty line that is lost is poisoned with ORIGIN 2; a clean line is fetched again. -/
def Line.bitError (l : Line) (ln : Nat) (i : Option Nat) : Line :=
  { l with poison := match i with | some k => if l.dirty then Sparse.set l.poison (ln * 8 + k % 8) 2 else l.poison | none => l.poison }

/-- Granules of a core's scratchpad, rows of its tiles and its slots that are lost (R404, R425). -/
def Core.bitErrors (c : Core) (granule row : Option Nat) (slots : Nat → Bool) : Core :=
  { c with
    scrPoison := match granule with | some g => if g < 131072 then Sparse.set c.scrPoison g 3 else c.scrPoison | none => c.scrPoison
    tilePoison := match row with | some r => if r < 1024 ∧ r ∉ c.tilePoison then c.tilePoison ++ [r] else c.tilePoison | none => c.tilePoison
    slots := Sparse.mapVals c.slots (fun j x => { x with poison := x.poison || slots j }) }

/-- The errors of a core cycle. -/
def State.bitErrors (s0 : State) : State :=
  let s := if Config.corrected s0.fresh then s0.log 5 else s0
  { s with
    threads := Sparse.mapVals s.threads (fun tk t => t.registerError (Config.registerError s.fresh tk))
    poison := match Config.dramError s.fresh with
      | some g => if s.ownDram (g * 16) then Sparse.set s.poison g 1 else s.poison
      | none => s.poison
    lines := Sparse.mapVals s.lines (fun ln l => l.bitError ln (Config.lineError s.fresh ln))
    cores := Sparse.mapVals s.cores (fun k c =>
      c.bitErrors (Config.scratchError s.fresh k) (Config.tileError s.fresh k) (fun j => Config.slotError s.fresh (k * 32 + j))) }

end Sys2Proof.Machine
end

