-- ==== Sys2Proof/Machine/Tick.lean ====
section
/-!
DEFINITION. One core cycle of the package (log 5): which steps of the other agents fall due in it, and in which order.
-/
namespace Sys2Proof.Machine

/-! ### Accesses, engines and threads -/

/-- The steps of an access: those of its way that may begin now, as many as may fall into one cycle, and then its acknowledgement
or the return of a refill. What may begin is settled as the cycle begins, so that writes of one issue to one location go together
(R218, R223). How long an access stays at a stage is a free value, so it may rest there (R98, log 9). -/
def State.reqSteps (s : State) (r : Req) : List Instr :=
  let acked := decide (r.ackDue ≤ s.now (tkCore r.tk))
  match r.stage with
  | .done => match r.act with
    | .refill _ => if acked then [.longLatencyResult r.tk r.id 0] else []
    | _ => if r.counted && acked then [.storeAcknowledge r.id] else []
  | .retry => .genRetry r.id :: List.replicate 4 (.homeSliceRequest r.id)
  | _ => if r.place.isScr || !s.mayPerform r then [] else List.replicate 4 (.homeSliceRequest r.id)

/-- The steps of scratchpad accesses, copy by copy: the writes of one issue to one copy go together (R218). -/
def scrSteps (rs : List Req) : List Instr :=
  let n := (rs.map (fun r => r.place.spans.length)).foldl max 0
  (List.range n).flatMap (fun _ => rs.map (fun r => .scratchpadPeerAccess r.id))

/-- The steps of accesses, the lowest precedence first, so that the highest is placed last (R97). -/
def State.accessSteps (s : State) : List Instr :=
  let rs := sortBy (fun a b => decide (s.reqRank a.tk ≤ s.reqRank b.tk)) s.reqs
  rs.flatMap s.reqSteps ++ scrSteps (rs.filter (fun r => r.place.isScr && r.stage == .held && s.reqDue r && s.clearToGo r))

/-- The steps of a running command that is due. -/
def State.landSteps (s : State) (r : Running) : List Instr :=
  if s.now (tkCore r.cmd.tk) < r.due then []
  else List.replicate r.pieces.length (.engineLanding r.id) ++ [.engineCommandComplete r.id]

/-- The steps of the copy engines' commands, class 2 of Table 5.3, the lowest precedence first. -/
def State.copyLandSteps (s : State) : List Instr :=
  let rank (r : Running) : Nat := r.core * 2 + r.engine
  (sortBy (fun a b => decide (rank a ≤ rank b)) (s.runnings.filter (fun r => decide (r.engine < 2)))).flatMap s.landSteps

/-- What the free delays of a window depend on: the window, or for a collective its completion, which is one for all members (R359). -/
def Pend.delayKey (p : Pend) : Nat := match p.kind with | .coll _ _ => p.completion | _ => p.id

/-- Whether a register of a window receives its value by now (R31): by the figure, else each at a free time of its own. -/
def State.landsNow (s : State) (tk : Nat) (p : Pend) (reg : Nat) : Bool :=
  decide (p.due + (if (s.core (tkCore tk)).det then 0 else Config.registerDelay (p.delayKey) reg) ≤ s.now (tkCore tk))
/-- The results of windows that are due. -/
def State.windowSteps (s : State) : List Instr :=
  s.threads.flatMap (fun c => (c.2.pends.filter (·.ready)).flatMap (fun p =>
    if p.regs = [] then (if s.landsNow c.1 p 0 then [.longLatencyResult c.1 p.id 0] else [])
    else (p.regs.filter (s.landsNow c.1 p)).map (fun r => .longLatencyResult c.1 p.id r)))

/-- The walks that have a walker: 32 at each site, the oldest (R52). -/
def State.walking (s : State) : List Walk :=
  (List.range 16).flatMap (fun i => (s.walks.filter (fun w => w.core / 4 == i)).take 32)

/-- Walks, branches and sleepers that are due. -/
def State.wakeSteps (s : State) : List Instr :=
  (s.walking.filter (fun w => decide (w.due ≤ s.clk))).map (fun w => .walkComplete w.id) ++
  (s.branches.filter (fun b => decide (b.due ≤ s.now b.core))).map (fun b => .branchResolution b.id) ++
  (s.threads.filter (fun c => c.2.wait == .sleep && decide (c.2.sleepAt ≤ s.clk))).map (fun c => .sleepWake c.1)

/-- The matrix unit's steps. -/
def State.matrixSteps (s : State) : List Instr :=
  (s.cores.filter (fun c => c.2.mxq != [])).flatMap (fun c =>
    c.2.mxq.filterMap (fun e =>
      if !e.started || s.now c.1 < e.due then none
      else if e.op = .mma then (if c.2.array = some e.id then some (.mmaKStep c.1 true) else none)
      else if e.op = .rsfill then some (.rsfillComplete c.1 e.id)
      else some (.accumulatorEntryComplete c.1 e.id)) ++
    (if (s.nextMma c.1).isSome then [.mmaStart c.1] else []))

/-- What a copy engine takes up next. -/
def State.copySteps (s : State) (core e : Nat) : List Instr :=
  match ((s.core core).copyQueues e).findSome? (s.headCmd core) with
  | none => []
  | some c => [if c.op = 2 then .cpStore core e else if c.op = 3 then .cpMove core e else .cpLoad core e]

/-- What a near-memory unit takes up next; what an installed customer routine does comes from outside (R271). -/
def State.unitSteps (s : State) (site u : Nat) : List Instr :=
  let x := s.site site
  match s.siteHead site u (((List.range 4).filter (fun v => x.unitFor v == some u)).map (· + 2)) with
  | none => []
  | some (_, c) => match c.entry with
    | 0 => [.nmuFill site u]
    | 1 => [.nmuAxpy site u]
    | 2 => [.nmuSumReduce site u]
    | 3 => [.nmuScatterAdd site u]
    | 4 => [.nmuGather site u]
    | 5 => [.nmuReEncode site u]
    | n => if s.routines.contains n then [] else [.nmuCustomCall site u [] 0 0]

/-- The steps of the near-memory units and the attention decode engines, class 1 of Table 5.3, the lowest precedence first:
what each lands and what it takes up, which a near-memory unit writes as it starts. -/
def State.unitClassSteps (s : State) : List Instr :=
  (List.range 16).flatMap (fun i =>
    let rs := (s.site i).running
    (List.range 4).flatMap (fun u => (rs.filter (fun r => r.engine == 2 + u)).flatMap s.landSteps ++ s.unitSteps i u) ++
    (rs.filter (fun r => decide (6 ≤ r.engine))).flatMap s.landSteps ++
    (if (s.siteHead i 4 [6]).isSome then [.attDecode i true] else []))

/-- What the copy engines take up. -/
def State.takeSteps (s : State) : List Instr :=
  (s.cores.filter (fun c => c.2.queues.any (fun q => q.2 != []))).flatMap (fun c => s.copySteps c.1 0 ++ s.copySteps c.1 1)

/-! ### The scheduler -/

/-- The scheduler's steps; nothing is scheduled while the recovery image runs (R460). -/
def State.schedSteps (s : State) : List Instr :=
  if s.recovery then []
  else
    (s.queues.filter (fun q => q.2.en && q.2.work != [])).flatMap (fun q => [.launchBegin q.1, .graphRunBegin q.1]) ++
    s.runs.flatMap (fun r => (r.2.nodes.zipIdx.filter (fun n => n.1 == .waiting)).map (fun n => .graphNodeBegin r.1 n.2)) ++
    (match s.nextWork with | some (l, _, _) => [.blockDispatch l.id []] | none => []) ++
    s.blocks.flatMap (fun b =>
      (if b.2.doubleFault || b.2.discard || (s.threadsOf b.1).all (fun t => t.2.exited) then [.blockEnd b.2.core b.2.bslot] else []) ++
      (if b.2.stopping then [.contextSaveComplete b.2.core b.2.bslot true] else [])) ++
    (s.launches.filter (fun l => s.launchDone l.2)).map (fun l => .launchComplete l.1) ++
    (s.queues.filter (fun q => match q.2.quantum with | some d => decide (d ≤ s.clk) | none => false)).map
      (fun q => .quantumExpiry q.1) ++
    (s.blocks.filter (fun b => match b.2.pause with | some d => decide (d ≤ s.clk) | none => false)).map
      (fun b => .drainmaxExpiry b.2.core b.2.bslot) ++
    s.quiltSince.filterMap (fun c =>
      if s.clk < c.2 + usCycles 200 then none
      else (s.quiltUnit (c.1 / 2 ^ 32) (c.1 % 2 ^ 32)).bind (fun u => (s.siteOrder u.1 u.2).head?.map (fun i =>
        .quiltReservation i (c.1 / 2 ^ 32) (c.1 % 2 ^ 32)))) ++
    (s.sites.filter (fun x => x.2.reservation.isSome)).map (fun x => .reservationClearing x.1)

/-! ### Slices, sampler, power and probes -/

/-- The ratio n of a slice (R296, R298, R44). -/
def State.ratio (s : State) (core sl : Nat) : Nat :=
  let c := s.core core
  if c.det then 8
  else if s.threads.any (fun t => tkCore t.1 == core && sliceOfThr (tkThr t.1) == sl && !t.2.exited) then c.nrat
  else 1

/-- Whether %clk has an edge of a core's clock: during a droop every second one (R300). -/
def State.coreTicks (s : State) (core : Nat) : Bool := !(s.core core).droop || s.clk % 2 == 0
/-- Whether the core cycle carries an edge of a slice (R296, R300): the cycles of the core's own clock count. -/
def State.edgeNow (s : State) (core sl : Nat) : Bool :=
  let n := s.ratio core sl
  let c := s.now core
  s.coreTicks core && decide ((c + 1) * n / 8 > c * n / 8)

/-- The slice cycles of a core cycle. -/
def State.sliceSteps (s : State) : List Instr :=
  (List.range 384).filterMap (fun i => if s.edgeNow (i / 6) (i % 6) then some (.sliceCycle (i / 6) (i % 6)) else none)

/-- Sampler ticks (R209). -/
def State.sampleSteps (s : State) : List Instr :=
  s.cores.filterMap (fun c =>
    let now := s.now c.1
    if c.2.en && s.coreTicks c.1 && decide (c.2.epoch < now) && (now - c.2.epoch) % c.2.period == 0 then some (.samplerTick c.1)
    else none)

/-- What the sensors of a site read in this core cycle (R304, R452). -/
def State.readingsOf (s : State) (i : Nat) : List Int := (List.range 36).map (fun k => Config.reading s.fresh (i * 64 + k))
/-- What a site's power measures in this core cycle (R305). -/
def State.powerReading (s : State) (i : Nat) : PowerReading :=
  ⟨Config.sitePower s.fresh i, (List.range 4).map (fun c => Config.corePower s.fresh (i * 4 + c))⟩
/-- What the inlet sensors read in this core cycle. -/
def State.inletReadings (s : State) : Int × Int := (Config.reading s.fresh 1024, Config.reading s.fresh 1025)
/-- Whether the sensors are tested in this core cycle, once in 1 ms (R452). -/
def State.sensorsTested (s : State) : Bool := s.clk % 2100000 == 0
/-- A site with its sensors as they stand after the test of this core cycle, if there is one. -/
def State.siteTested (s : State) (i : Nat) : Site :=
  let x := s.site i
  if s.sensorsTested then
    { x with sensors := testSensors x.sensors ((x.powerOf (s.powerReading i) :: x.powerHist).take 50) (s.readingsOf i) }
  else x

/-- Windows, intervals and evaluations at fixed times (R65, R298, R305, R307, R452). -/
def State.timedSteps (s : State) : List Instr :=
  (if s.clk % 134400 = 0 then (List.range 16).map (fun i => .replicationWindow i) else []) ++
  (if s.clk % 2100 = 0 then (List.range 64).map (fun c => .powerControllerInterval c (Config.activity s.fresh c)) else []) ++
  (s.cores.filter (fun c => c.2.droop && decide (c.2.holdEnd ≤ s.clk))).map
    (fun c => .droopHoldExpiry c.1) ++
  (if s.sensorsTested then (List.range 16).map (fun i =>
      .sensorTest i (s.readingsOf i) (s.powerReading i) s.inletReadings) else []) ++
  (if s.clk % 210000 = 0 then (List.range 16).map (fun i =>
      .governorEvaluation i (coolantOf s.inletReadings).1 ((s.siteTested i).dramTemp (s.readingsOf i)) (s.powerReading i) [])
    else []) ++
  (match s.group with
    | some g => if g.next ≤ s.groupTime g then [.throttleRoundBoundary] else []
    | none => [])

/-- Parties that have been blocked for a multiple of 2^20 cycles (R366), and calls that run too long (R436). -/
def State.probeSteps (s : State) : List Instr :=
  let due (since : Nat) : Bool := decide (since < s.clk) && (s.clk - since) % 2 ^ 20 == 0
  (s.threads.filter (fun c => !c.2.exited && (c.2.wait != .none) && due (max c.2.waitSince c.2.unblocked))).map (fun c => .waitProbe (.thread c.1)) ++
  s.cores.flatMap (fun c => (c.2.mxq.filter (fun e => !e.started && due e.since)).map (fun e => .waitProbe (.entry c.1 e.id))) ++
  s.blocks.flatMap (fun b => b.2.nodes.filterMap (fun n => match n.2.held with
    | some c => if due c.heldSince && decide (n.2.count > 0) then some (.waitProbe (.node b.1 n.1)) else none
    | none => none)) ++
  (s.runnings.filter (fun r => decide (2 ≤ r.engine ∧ r.engine ≤ 5 ∧ r.started + 2 ^ 24 < s.clk))).map
    (fun r => .nmuCallTimeout (r.core / 4) (r.engine - 2))

/-- Every step that falls due in the core cycle, in the model's order (log 5); writes stand in ascending precedence (Table 5.3). -/
def State.dueSteps (s : State) : List Instr :=
  s.unitClassSteps ++ s.copyLandSteps ++ s.accessSteps ++ s.wakeSteps ++ s.windowSteps ++ s.matrixSteps ++ s.takeSteps ++ s.schedSteps ++
    s.sliceSteps ++ s.sampleSteps ++ s.timedSteps ++ s.probeSteps

/-- The cores whose halved clock has no edge in this cycle fall one cycle further behind %clk (R300). -/
def State.loseEdges (s : State) : State :=
  (s.cores.filter (fun c => !s.coreTicks c.1)).foldl (fun s c => s.modCore c.1 (fun x => { x with lost := x.lost + 1 })) s

/-- A matrix entry that is not blocked has been blocked for no cycle, and so a thread that waits for its own acquire before it may
enter the matrix queue (R365, R366). -/
def State.noteUnblocked (s : State) : State :=
  let ts := s.threads.filter (fun c => (match c.2.wait with | .matrixRoom _ => true | _ => false) && s.acqOpen c.1)
  let s1 := ts.foldl (fun s c => s.setThread c.1 { c.2 with unblocked := s.clk }) s
  (s1.cores.filter (fun c => c.2.mxq.any s.seamOk)).foldl (fun s c => s.modCore c.1 (fun x =>
    { x with mxq := x.mxq.map (fun e => if s.seamOk e then { e with since := s.clk } else e) })) s1

/-- The next core cycle begins: what waits to start or to re-enter a queue does so, and the steps that are due stand in the
agenda. -/
def State.tick (s : State) : State :=
  let s1 := ({ s with clk := s.clk + 1, taken := [], cycleWrites := [] }).loseEdges.bitErrors.firmwareActs.settleFlags.haltDrained.noteUnblocked.startWaiting
  let s2 := (s1.blocks.filter (fun b => b.2.savedEntries != [] || b.2.savedCmds != [])).foldl (fun s b => s.reenter b.1) s1
  let s3 := s2.stopDrained.trackQuilts
  { s3 with agenda := s3.dueSteps, fresh := s3.fresh + 1 }

end Sys2Proof.Machine
end

