-- ==== Sys2Proof/Machine/Step.lean ====
section
/-!
DEFINITION. One step of the machine: a stitch that has been selected issues; else the next step of the agenda takes place; else
the next core cycle begins (log 5).
-/
namespace Sys2Proof.Machine

/-- One step. -/
def step (s : State) : Host.Outcome State Fault Refusal :=
  if s.held then match s.agenda with
    | i :: rest => (State.heldStep { s with agenda := rest } i).getD (exec i { s with agenda := rest })
    | [] => .fault .heldInReset
  else match s.issueQ with
  | z :: rest =>
    match (s.takeIssue z rest).fetchIssue with
    | (some i, t) => exec i t
    | (none, t) => .next t
  | [] => match s.agenda with
    | i :: rest => exec i { s with agenda := rest }
    | [] => .next s.tick

/-- The state with an instruction at the PC of a helper thread whose stitch issues next (log 25). -/
def State.withFetchWord (s : State) (nbits w : Nat) : State := s.placeWord nbits w

end Sys2Proof.Machine
end

