-- ==== Sys2Proof/Laws/PerInstr.lean ====
section
/-!
SUPPORT. What holds of every constructor of `Instr`: an instruction with an assigned opcode is built from its opcode and its
fields, and its word is that opcode byte with those fields; a step of another agent has no word.
-/
namespace Sys2Proof.Laws.Word

/-- The word of an instruction is its opcode's byte with its fields (R112, R129); what has no opcode of the tables has no word,
but for an unassigned byte (R130). -/
def Statement (i : Instr) : Prop :=
  match i.op? with
  | some o => ∃ f, i = o.instr f ∧ i.word? = some (o.code, f)
  | none => i.word? = none ∨ ∃ c f, i = .unassignedOpcode c f ∧ i.word? = some (c, f)

theorem nop (f : Fields) : Statement (.nop f) := ⟨f, rfl, rfl⟩
theorem iadd (f : Fields) : Statement (.iadd f) := ⟨f, rfl, rfl⟩
theorem isub (f : Fields) : Statement (.isub f) := ⟨f, rfl, rfl⟩
theorem imul (f : Fields) : Statement (.imul f) := ⟨f, rfl, rfl⟩
theorem imulhi (f : Fields) : Statement (.imulhi f) := ⟨f, rfl, rfl⟩
theorem imad (f : Fields) : Statement (.imad f) := ⟨f, rfl, rfl⟩
theorem imin (f : Fields) : Statement (.imin f) := ⟨f, rfl, rfl⟩
theorem imax (f : Fields) : Statement (.imax f) := ⟨f, rfl, rfl⟩
theorem iabs (f : Fields) : Statement (.iabs f) := ⟨f, rfl, rfl⟩
theorem lea (f : Fields) : Statement (.lea f) := ⟨f, rfl, rfl⟩
theorem icmp (f : Fields) : Statement (.icmp f) := ⟨f, rfl, rfl⟩
theorem sel (f : Fields) : Statement (.sel f) := ⟨f, rfl, rfl⟩
theorem and (f : Fields) : Statement (.and f) := ⟨f, rfl, rfl⟩
theorem or (f : Fields) : Statement (.or f) := ⟨f, rfl, rfl⟩
theorem xor (f : Fields) : Statement (.xor f) := ⟨f, rfl, rfl⟩
theorem andn (f : Fields) : Statement (.andn f) := ⟨f, rfl, rfl⟩
theorem shl (f : Fields) : Statement (.shl f) := ⟨f, rfl, rfl⟩
theorem shr (f : Fields) : Statement (.shr f) := ⟨f, rfl, rfl⟩
theorem sha (f : Fields) : Statement (.sha f) := ⟨f, rfl, rfl⟩
theorem shf (f : Fields) : Statement (.shf f) := ⟨f, rfl, rfl⟩
theorem bfx (f : Fields) : Statement (.bfx f) := ⟨f, rfl, rfl⟩
theorem bfi (f : Fields) : Statement (.bfi f) := ⟨f, rfl, rfl⟩
theorem popc (f : Fields) : Statement (.popc f) := ⟨f, rfl, rfl⟩
theorem clz (f : Fields) : Statement (.clz f) := ⟨f, rfl, rfl⟩
theorem brev (f : Fields) : Statement (.brev f) := ⟨f, rfl, rfl⟩
theorem perm (f : Fields) : Statement (.perm f) := ⟨f, rfl, rfl⟩
theorem plop (f : Fields) : Statement (.plop f) := ⟨f, rfl, rfl⟩
theorem mov (f : Fields) : Statement (.mov f) := ⟨f, rfl, rfl⟩
theorem movsr (f : Fields) : Statement (.movsr f) := ⟨f, rfl, rfl⟩
theorem ldkx (f : Fields) : Statement (.ldkx f) := ⟨f, rfl, rfl⟩
theorem isad (f : Fields) : Statement (.isad f) := ⟨f, rfl, rfl⟩
theorem imulw (f : Fields) : Statement (.imulw f) := ⟨f, rfl, rfl⟩
theorem fadd (f : Fields) : Statement (.fadd f) := ⟨f, rfl, rfl⟩
theorem fsub (f : Fields) : Statement (.fsub f) := ⟨f, rfl, rfl⟩
theorem fmul (f : Fields) : Statement (.fmul f) := ⟨f, rfl, rfl⟩
theorem ffma (f : Fields) : Statement (.ffma f) := ⟨f, rfl, rfl⟩
theorem fmin (f : Fields) : Statement (.fmin f) := ⟨f, rfl, rfl⟩
theorem fmax (f : Fields) : Statement (.fmax f) := ⟨f, rfl, rfl⟩
theorem fabs (f : Fields) : Statement (.fabs f) := ⟨f, rfl, rfl⟩
theorem fneg (f : Fields) : Statement (.fneg f) := ⟨f, rfl, rfl⟩
theorem fcmp (f : Fields) : Statement (.fcmp f) := ⟨f, rfl, rfl⟩
theorem fset (f : Fields) : Statement (.fset f) := ⟨f, rfl, rfl⟩
theorem fclass (f : Fields) : Statement (.fclass f) := ⟨f, rfl, rfl⟩
theorem frnd (f : Fields) : Statement (.frnd f) := ⟨f, rfl, rfl⟩
theorem fdiv (f : Fields) : Statement (.fdiv f) := ⟨f, rfl, rfl⟩
theorem fsqrt (f : Fields) : Statement (.fsqrt f) := ⟨f, rfl, rfl⟩
theorem frcp (f : Fields) : Statement (.frcp f) := ⟨f, rfl, rfl⟩
theorem frsq (f : Fields) : Statement (.frsq f) := ⟨f, rfl, rfl⟩
theorem fexp2 (f : Fields) : Statement (.fexp2 f) := ⟨f, rfl, rfl⟩
theorem flog2 (f : Fields) : Statement (.flog2 f) := ⟨f, rfl, rfl⟩
theorem fsinpi (f : Fields) : Statement (.fsinpi f) := ⟨f, rfl, rfl⟩
theorem fcospi (f : Fields) : Statement (.fcospi f) := ⟨f, rfl, rfl⟩
theorem fscl (f : Fields) : Statement (.fscl f) := ⟨f, rfl, rfl⟩
theorem fcpys (f : Fields) : Statement (.fcpys f) := ⟨f, rfl, rfl⟩
theorem fgete (f : Fields) : Statement (.fgete f) := ⟨f, rfl, rfl⟩
theorem fgetm (f : Fields) : Statement (.fgetm f) := ⟨f, rfl, rfl⟩
theorem fsat (f : Fields) : Statement (.fsat f) := ⟨f, rfl, rfl⟩
theorem hadd2 (f : Fields) : Statement (.hadd2 f) := ⟨f, rfl, rfl⟩
theorem hsub2 (f : Fields) : Statement (.hsub2 f) := ⟨f, rfl, rfl⟩
theorem hmul2 (f : Fields) : Statement (.hmul2 f) := ⟨f, rfl, rfl⟩
theorem hfma2 (f : Fields) : Statement (.hfma2 f) := ⟨f, rfl, rfl⟩
theorem hmin2 (f : Fields) : Statement (.hmin2 f) := ⟨f, rfl, rfl⟩
theorem hmax2 (f : Fields) : Statement (.hmax2 f) := ⟨f, rfl, rfl⟩
theorem hcmp2 (f : Fields) : Statement (.hcmp2 f) := ⟨f, rfl, rfl⟩
theorem hdot2 (f : Fields) : Statement (.hdot2 f) := ⟨f, rfl, rfl⟩
theorem cvtf (f : Fields) : Statement (.cvtf f) := ⟨f, rfl, rfl⟩
theorem cvtfi (f : Fields) : Statement (.cvtfi f) := ⟨f, rfl, rfl⟩
theorem cvtif (f : Fields) : Statement (.cvtif f) := ⟨f, rfl, rfl⟩
theorem cvtf8 (f : Fields) : Statement (.cvtf8 f) := ⟨f, rfl, rfl⟩
theorem cvt8f (f : Fields) : Statement (.cvt8f f) := ⟨f, rfl, rfl⟩
theorem pk8 (f : Fields) : Statement (.pk8 f) := ⟨f, rfl, rfl⟩
theorem unpk8 (f : Fields) : Statement (.unpk8 f) := ⟨f, rfl, rfl⟩
theorem pk16 (f : Fields) : Statement (.pk16 f) := ⟨f, rfl, rfl⟩
theorem unpk16 (f : Fields) : Statement (.unpk16 f) := ⟨f, rfl, rfl⟩
theorem cvtsf8 (f : Fields) : Statement (.cvtsf8 f) := ⟨f, rfl, rfl⟩
theorem habs2 (f : Fields) : Statement (.habs2 f) := ⟨f, rfl, rfl⟩
theorem hclass2 (f : Fields) : Statement (.hclass2 f) := ⟨f, rfl, rfl⟩
theorem ipk16 (f : Fields) : Statement (.ipk16 f) := ⟨f, rfl, rfl⟩
theorem idot4 (f : Fields) : Statement (.idot4 f) := ⟨f, rfl, rfl⟩
theorem iadd2 (f : Fields) : Statement (.iadd2 f) := ⟨f, rfl, rfl⟩
theorem imin2 (f : Fields) : Statement (.imin2 f) := ⟨f, rfl, rfl⟩
theorem imax2 (f : Fields) : Statement (.imax2 f) := ⟨f, rfl, rfl⟩
theorem bra (f : Fields) : Statement (.bra f) := ⟨f, rfl, rfl⟩
theorem jmpi (f : Fields) : Statement (.jmpi f) := ⟨f, rfl, rfl⟩
theorem call (f : Fields) : Statement (.call f) := ⟨f, rfl, rfl⟩
theorem calli (f : Fields) : Statement (.calli f) := ⟨f, rfl, rfl⟩
theorem ret (f : Fields) : Statement (.ret f) := ⟨f, rfl, rfl⟩
theorem exit (f : Fields) : Statement (.exit f) := ⟨f, rfl, rfl⟩
theorem yield (f : Fields) : Statement (.yield f) := ⟨f, rfl, rfl⟩
theorem sleep (f : Fields) : Statement (.sleep f) := ⟨f, rfl, rfl⟩
theorem skjoin (f : Fields) : Statement (.skjoin f) := ⟨f, rfl, rfl⟩
theorem skleave (f : Fields) : Statement (.skleave f) := ⟨f, rfl, rfl⟩
theorem bar (f : Fields) : Statement (.bar f) := ⟨f, rfl, rfl⟩
theorem vote (f : Fields) : Statement (.vote f) := ⟨f, rfl, rfl⟩
theorem ballot (f : Fields) : Statement (.ballot f) := ⟨f, rfl, rfl⟩
theorem shfl (f : Fields) : Statement (.shfl f) := ⟨f, rfl, rfl⟩
theorem skred (f : Fields) : Statement (.skred f) := ⟨f, rfl, rfl⟩
theorem skmatch (f : Fields) : Statement (.skmatch f) := ⟨f, rfl, rfl⟩
theorem flags (f : Fields) : Statement (.flags f) := ⟨f, rfl, rfl⟩
theorem binit (f : Fields) : Statement (.binit f) := ⟨f, rfl, rfl⟩
theorem bexpect (f : Fields) : Statement (.bexpect f) := ⟨f, rfl, rfl⟩
theorem barrive (f : Fields) : Statement (.barrive f) := ⟨f, rfl, rfl⟩
theorem bwait (f : Fields) : Statement (.bwait f) := ⟨f, rfl, rfl⟩
theorem btest (f : Fields) : Statement (.btest f) := ⟨f, rfl, rfl⟩
theorem seamset (f : Fields) : Statement (.seamset f) := ⟨f, rfl, rfl⟩
theorem seamsign (f : Fields) : Statement (.seamsign f) := ⟨f, rfl, rfl⟩
theorem seamwait (f : Fields) : Statement (.seamwait f) := ⟨f, rfl, rfl⟩
theorem seamtest (f : Fields) : Statement (.seamtest f) := ⟨f, rfl, rfl⟩
theorem stwait (f : Fields) : Statement (.stwait f) := ⟨f, rfl, rfl⟩
theorem gld (f : Fields) : Statement (.gld f) := ⟨f, rfl, rfl⟩
theorem gst (f : Fields) : Statement (.gst f) := ⟨f, rfl, rfl⟩
theorem sld (f : Fields) : Statement (.sld f) := ⟨f, rfl, rfl⟩
theorem sst (f : Fields) : Statement (.sst f) := ⟨f, rfl, rfl⟩
theorem lld (f : Fields) : Statement (.lld f) := ⟨f, rfl, rfl⟩
theorem lst (f : Fields) : Statement (.lst f) := ⟨f, rfl, rfl⟩
theorem pref (f : Fields) : Statement (.pref f) := ⟨f, rfl, rfl⟩
theorem gamo (f : Fields) : Statement (.gamo f) := ⟨f, rfl, rfl⟩
theorem gred (f : Fields) : Statement (.gred f) := ⟨f, rfl, rfl⟩
theorem samo (f : Fields) : Statement (.samo f) := ⟨f, rfl, rfl⟩
theorem sred (f : Fields) : Statement (.sred f) := ⟨f, rfl, rfl⟩
theorem gcas (f : Fields) : Statement (.gcas f) := ⟨f, rfl, rfl⟩
theorem scas (f : Fields) : Statement (.scas f) := ⟨f, rfl, rfl⟩
theorem fence (f : Fields) : Statement (.fence f) := ⟨f, rfl, rfl⟩
theorem mark (f : Fields) : Statement (.mark f) := ⟨f, rfl, rfl⟩
theorem cctl (f : Fields) : Statement (.cctl f) := ⟨f, rfl, rfl⟩
theorem mma (f : Fields) : Statement (.mma f) := ⟨f, rfl, rfl⟩
theorem accz (f : Fields) : Statement (.accz f) := ⟨f, rfl, rfl⟩
theorem accld (f : Fields) : Statement (.accld f) := ⟨f, rfl, rfl⟩
theorem accst (f : Fields) : Statement (.accst f) := ⟨f, rfl, rfl⟩
theorem rsalloc (f : Fields) : Statement (.rsalloc f) := ⟨f, rfl, rfl⟩
theorem rsfill (f : Fields) : Statement (.rsfill f) := ⟨f, rfl, rfl⟩
theorem rssrc (f : Fields) : Statement (.rssrc f) := ⟨f, rfl, rfl⟩
theorem rspin (f : Fields) : Statement (.rspin f) := ⟨f, rfl, rfl⟩
theorem rsunpin (f : Fields) : Statement (.rsunpin f) := ⟨f, rfl, rfl⟩
theorem rsrevoke (f : Fields) : Statement (.rsrevoke f) := ⟨f, rfl, rfl⟩
theorem rsquery (f : Fields) : Statement (.rsquery f) := ⟨f, rfl, rfl⟩
theorem accadd (f : Fields) : Statement (.accadd f) := ⟨f, rfl, rfl⟩
theorem accmov (f : Fields) : Statement (.accmov f) := ⟨f, rfl, rfl⟩
theorem push (f : Fields) : Statement (.push f) := ⟨f, rfl, rfl⟩
theorem trap (f : Fields) : Statement (.trap f) := ⟨f, rfl, rfl⟩
theorem brk (f : Fields) : Statement (.brk f) := ⟨f, rfl, rfl⟩
theorem tret (f : Fields) : Statement (.tret f) := ⟨f, rfl, rfl⟩
theorem crrd (f : Fields) : Statement (.crrd f) := ⟨f, rfl, rfl⟩
theorem crwr (f : Fields) : Statement (.crwr f) := ⟨f, rfl, rfl⟩
theorem cntrd (f : Fields) : Statement (.cntrd f) := ⟨f, rfl, rfl⟩
theorem tlbinvWrite (core : Nat) (v : DWord) : Statement (.tlbinvWrite core v) := Or.inl rfl
theorem slhashWrite (site n : Nat) (v : DWord) : Statement (.slhashWrite site n v) := Or.inl rfl
theorem rsquotaSet (core : Nat) (v : DWord) : Statement (.rsquotaSet core v) := Or.inl rfl
theorem rsquotaSelect (core : Nat) (v : DWord) : Statement (.rsquotaSelect core v) := Or.inl rfl
theorem smpctlWrite (core : Nat) (v : DWord) : Statement (.smpctlWrite core v) := Or.inl rfl
theorem smpbaseWrite (core : Nat) (v : DWord) : Statement (.smpbaseWrite core v) := Or.inl rfl
theorem smpsizeWrite (core : Nat) (v : DWord) : Statement (.smpsizeWrite core v) := Or.inl rfl
theorem smpwrWrite (core : Nat) (v : DWord) : Statement (.smpwrWrite core v) := Or.inl rfl
theorem smprdWrite (core : Nat) (v : DWord) : Statement (.smprdWrite core v) := Or.inl rfl
theorem smpdropWrite (core : Nat) (v : DWord) : Statement (.smpdropWrite core v) := Or.inl rfl
theorem tpcWrite (tk : Nat) (v : DWord) : Statement (.tpcWrite tk v) := Or.inl rfl
theorem tvecWrite (v : DWord) : Statement (.tvecWrite v) := Or.inl rfl
theorem controlRegisterWrite (core tk num : Nat) (v : DWord) : Statement (.controlRegisterWrite core tk num v) := Or.inl rfl
theorem qcfgWrite (q : Nat) (v : DWord) : Statement (.qcfgWrite q v) := Or.inl rfl
theorem qringWrite (q : Nat) (v : DWord) : Statement (.qringWrite q v) := Or.inl rfl
theorem qtailWrite (q : Nat) (v : DWord) : Statement (.qtailWrite q v) := Or.inl rfl
theorem qtrigWrite (q : Nat) (v : DWord) : Statement (.qtrigWrite q v) := Or.inl rfl
theorem qgraphWrite (q : Nat) (firmware : Bool) (v : DWord) : Statement (.qgraphWrite q firmware v) := Or.inl rfl
theorem frameModeWrite (site index : Nat) (v : Byte) : Statement (.frameModeWrite site index v) := Or.inl rfl
theorem bindRecordWrite (core entry : Nat) (v : DWord) : Statement (.bindRecordWrite core entry v) := Or.inl rfl
theorem deviceRegisterWrite (firmware : Bool) (pa : Nat) (bytes : List Byte)
    : Statement (.deviceRegisterWrite firmware pa bytes) := Or.inl rfl
theorem controlPortRegisterWrite (port pa : Nat) (v : DWord) : Statement (.controlPortRegisterWrite port pa v) := Or.inl rfl
theorem controlPortRegisterRead (port pa : Nat) : Statement (.controlPortRegisterRead port pa) := Or.inl rfl
theorem graphUpload (port gid : Nat) (image : List Byte) : Statement (.graphUpload port gid image) := Or.inl rfl
theorem throttleGroupAssignment (gid : Nat) (devs : List Nat) (offset : Int)
    : Statement (.throttleGroupAssignment gid devs offset) := Or.inl rfl
theorem startCommand (cold : Bool) : Statement (.startCommand cold) := Or.inl rfl
theorem debuggerHalt (core bslot : Nat) : Statement (.debuggerHalt core bslot) := Or.inl rfl
theorem debuggerResume (core bslot : Nat) : Statement (.debuggerResume core bslot) := Or.inl rfl
theorem threadRecordRead (tk : Nat) : Statement (.threadRecordRead tk) := Or.inl rfl
theorem threadRecordWrite (tk : Nat) (bytes : List Byte) : Statement (.threadRecordWrite tk bytes) := Or.inl rfl
theorem breakpointArm (on : Bool) : Statement (.breakpointArm on) := Or.inl rfl
theorem attestation (nonce : List Byte) : Statement (.attestation nonce) := Or.inl rfl
theorem inboundFilterAccess (port src pa : Nat) (act : Machine.Action)
    : Statement (.inboundFilterAccess port src pa act) := Or.inl rfl
theorem rdmaWrite (port qp va : Nat) (bytes : List Byte) (imm : Option Word)
    : Statement (.rdmaWrite port qp va bytes imm) := Or.inl rfl
theorem rdmaRead (port qp va n : Nat) : Statement (.rdmaRead port qp va n) := Or.inl rfl
theorem rdmaSend (port qp : Nat) (bytes : List Byte) : Statement (.rdmaSend port qp bytes) := Or.inl rfl
theorem rdmaCompareAndSwap (port qp va : Nat) (old new : DWord)
    : Statement (.rdmaCompareAndSwap port qp va old new) := Or.inl rfl
theorem rdmaFetchAndAdd (port qp va : Nat) (b : DWord) : Statement (.rdmaFetchAndAdd port qp va b) := Or.inl rfl
theorem doorbellWrite (port qp : Nat) (w : Machine.ScaleOutWork) : Statement (.doorbellWrite port qp w) := Or.inl rfl
theorem cpLoad (core engine : Nat) : Statement (.cpLoad core engine) := Or.inl rfl
theorem cpStore (core engine : Nat) : Statement (.cpStore core engine) := Or.inl rfl
theorem cpMove (core engine : Nat) : Statement (.cpMove core engine) := Or.inl rfl
theorem nmuFill (site unit : Nat) : Statement (.nmuFill site unit) := Or.inl rfl
theorem nmuAxpy (site unit : Nat) : Statement (.nmuAxpy site unit) := Or.inl rfl
theorem nmuSumReduce (site unit : Nat) : Statement (.nmuSumReduce site unit) := Or.inl rfl
theorem nmuScatterAdd (site unit : Nat) : Statement (.nmuScatterAdd site unit) := Or.inl rfl
theorem nmuGather (site unit : Nat) : Statement (.nmuGather site unit) := Or.inl rfl
theorem nmuReEncode (site unit : Nat) : Statement (.nmuReEncode site unit) := Or.inl rfl
theorem nmuCustomCall (site unit : Nat) (writes : List (Nat × Word × List Nat)) (landed : Nat) (flags : Machine.FlagWord)
    : Statement (.nmuCustomCall site unit writes landed flags) := Or.inl rfl
theorem attDecode (site : Nat) (residueOk : Bool) : Statement (.attDecode site residueOk) := Or.inl rfl
theorem engineLanding (id : Nat) : Statement (.engineLanding id) := Or.inl rfl
theorem engineCommandComplete (id : Nat) : Statement (.engineCommandComplete id) := Or.inl rfl
theorem scratchpadPeerAccess (id : Nat) : Statement (.scratchpadPeerAccess id) := Or.inl rfl
theorem homeSliceRequest (id : Nat) : Statement (.homeSliceRequest id) := Or.inl rfl
theorem genRetry (id : Nat) : Statement (.genRetry id) := Or.inl rfl
theorem walkComplete (id : Nat) : Statement (.walkComplete id) := Or.inl rfl
theorem longLatencyResult (tk pend reg : Nat) : Statement (.longLatencyResult tk pend reg) := Or.inl rfl
theorem storeAcknowledge (id : Nat) : Statement (.storeAcknowledge id) := Or.inl rfl
theorem branchResolution (id : Nat) : Statement (.branchResolution id) := Or.inl rfl
theorem sleepWake (tk : Nat) : Statement (.sleepWake tk) := Or.inl rfl
theorem deferredReport (tk cause tval tinfo : Nat) : Statement (.deferredReport tk cause tval tinfo) := Or.inl rfl
theorem waitProbe (p : Machine.Party) : Statement (.waitProbe p) := Or.inl rfl
theorem mmaStart (core : Nat) : Statement (.mmaStart core) := Or.inl rfl
theorem mmaKStep (core : Nat) (residueOk : Bool) : Statement (.mmaKStep core residueOk) := Or.inl rfl
theorem rsfillComplete (core id : Nat) : Statement (.rsfillComplete core id) := Or.inl rfl
theorem accumulatorEntryComplete (core id : Nat) : Statement (.accumulatorEntryComplete core id) := Or.inl rfl
theorem launchBegin (q : Nat) : Statement (.launchBegin q) := Or.inl rfl
theorem launchComplete (id : Nat) : Statement (.launchComplete id) := Or.inl rfl
theorem graphRunBegin (q : Nat) : Statement (.graphRunBegin q) := Or.inl rfl
theorem graphNodeBegin (run node : Nat) : Statement (.graphNodeBegin run node) := Or.inl rfl
theorem blockDispatch (launch : Nat) (places : List Machine.Choice) : Statement (.blockDispatch launch places) := Or.inl rfl
theorem blockEnd (core bslot : Nat) : Statement (.blockEnd core bslot) := Or.inl rfl
theorem quantumExpiry (q : Nat) : Statement (.quantumExpiry q) := Or.inl rfl
theorem contextSaveComplete (core bslot : Nat) (ok : Bool) : Statement (.contextSaveComplete core bslot ok) := Or.inl rfl
theorem drainmaxExpiry (core bslot : Nat) : Statement (.drainmaxExpiry core bslot) := Or.inl rfl
theorem quiltReservation (site launch quilt : Nat) : Statement (.quiltReservation site launch quilt) := Or.inl rfl
theorem reservationClearing (site : Nat) : Statement (.reservationClearing site) := Or.inl rfl
theorem replicationWindow (site : Nat) : Statement (.replicationWindow site) := Or.inl rfl
theorem samplerTick (core : Nat) : Statement (.samplerTick core) := Or.inl rfl
theorem powerControllerInterval (core est : Nat) : Statement (.powerControllerInterval core est) := Or.inl rfl
theorem droopDetect (core : Nat) : Statement (.droopDetect core) := Or.inl rfl
theorem droopHoldExpiry (core : Nat) : Statement (.droopHoldExpiry core) := Or.inl rfl
theorem governorEvaluation (site : Nat) (tcool tdram : Int) (power : Machine.PowerReading) (moves : List (Nat × Nat × Nat))
    : Statement (.governorEvaluation site tcool tdram power moves) := Or.inl rfl
theorem dramOvertemp (site : Nat) (tdram : Int) : Statement (.dramOvertemp site tdram) := Or.inl rfl
theorem throttleRoundBoundary : Statement .throttleRoundBoundary := Or.inl rfl
theorem roundValueReceived (dev : Nat) (value : Machine.RoundValue) : Statement (.roundValueReceived dev value) := Or.inl rfl
theorem sensorTest (site : Nat) (readings : List Int) (power : Machine.PowerReading) (cool : Int × Int)
    : Statement (.sensorTest site readings power cool) := Or.inl rfl
theorem flitCrcError (link : Machine.Link) (failed : Bool) : Statement (.flitCrcError link failed) := Or.inl rfl
theorem sliceFence (site slice : Nat) (unreadable : List Nat) : Statement (.sliceFence site slice unreadable) := Or.inl rfl
theorem pseudoChannelFailure (site vault : Nat) : Statement (.pseudoChannelFailure site vault) := Or.inl rfl
theorem copyEngineFence (core engine : Nat) : Statement (.copyEngineFence core engine) := Or.inl rfl
theorem nmuCallTimeout (site unit : Nat) : Statement (.nmuCallTimeout site unit) := Or.inl rfl
theorem coldStart (info : Machine.StartInfo) : Statement (.coldStart info) := Or.inl rfl
theorem warmStart (info : Machine.StartInfo) : Statement (.warmStart info) := Or.inl rfl
theorem sliceCycle (core slice : Nat) : Statement (.sliceCycle core slice) := Or.inl rfl
theorem unassignedOpcode (opc : Byte) (f : Fields) : Statement (.unassignedOpcode opc f) := Or.inr ⟨opc, f, rfl, rfl⟩
theorem scaleUpPortTimeout (port : Nat) : Statement (.scaleUpPortTimeout port) := Or.inl rfl
theorem issueSliceFailure (core slice : Nat) : Statement (.issueSliceFailure core slice) := Or.inl rfl
theorem asidTeardown (asid : Nat) : Statement (.asidTeardown asid) := Or.inl rfl

end Sys2Proof.Laws.Word
end

