-- ==== Sys2Proof/WellFormed.lean ====
section
/-!
DEFINITION. Which values of `Instr` stand for a step of the machine at all: an unassigned opcode byte is one that Tables 6.14
to 6.19 leave free (R130), and the numbers of agents lie in the ranges that the package has (R6, R8, R16, R276, R375).
Every value of the fields of a word is encodable (Table 6.1), so an assigned opcode needs no check.
-/
namespace Sys2Proof

/-- Why a term of `Instr` stands for no step. -/
inductive IllFormed where
  | assignedOpcode
  | noSuchCore
  | noSuchSite
  | noSuchBlockSlot
  | noSuchThread
  | noSuchSlice
  | noSuchL2Slice
  | noSuchEngine
  | noSuchUnit
  | noSuchVault
  | noSuchQueue
  | noSuchControlPort
  | noSuchScaleUpPort
  | noSuchScaleOutPort
  | noSuchDevice
  | noSuchAsid
  | noSuchDomain
  | noSuchControlRegister
  | noSuchGraph
  | noSuchSegment
  | noSuchMesh
  | noSuchLink
  | wrongLength
  deriving DecidableEq, Repr

/-- The first check that fails. -/
def firstIll : List (Bool × IllFormed) → Option IllFormed
  | [] => none
  | (ok, e) :: r => if ok then firstIll r else some e

/-- A global core id (R8). -/
def coreOk (c : Nat) : Bool × IllFormed := (decide (c < 64), .noSuchCore)
/-- A site (R8). -/
def siteOk (i : Nat) : Bool × IllFormed := (decide (i < 16), .noSuchSite)
/-- A slot-table entry (R41). -/
def bslotOk (i : Nat) : Bool × IllFormed := (decide (i < 64), .noSuchBlockSlot)
/-- A thread key: core, slot-table entry and %thr below 3,072 (R21). -/
def threadOk (tk : Nat) : Bool × IllFormed := (decide (tk < 64 * 64 * 4096 ∧ tk % 4096 < 3072), .noSuchThread)
/-- A work queue (R276). -/
def queueOk (q : Nat) : Bool × IllFormed := (decide (q < 8192), .noSuchQueue)
/-- An optical control port (Table 1.4a). -/
def controlPortOk (p : Nat) : Bool × IllFormed := (decide (p < 2), .noSuchControlPort)
/-- A scale-up port (Table 1.4a). -/
def scaleUpPortOk (p : Nat) : Bool × IllFormed := (decide (p < 18), .noSuchScaleUpPort)
/-- A scale-out port (Table 1.4a). -/
def scaleOutPortOk (p : Nat) : Bool × IllFormed := (decide (p < 4), .noSuchScaleOutPort)
/-- A device number of the scale-up domain, which has at most 900 devices (R7, R17). -/
def deviceOk (d : Nat) : Bool × IllFormed := (decide (d < 900), .noSuchDevice)
/-- A unit of a core or site below a bound. -/
def unitOk (u n : Nat) (e : IllFormed) : Bool × IllFormed := (decide (u < n), e)

/-- What is wrong with a term, if anything. -/
def Instr.check : Instr → Option IllFormed
  | .unassignedOpcode opc _ => firstIll [((Op.ofCode opc).isNone, .assignedOpcode)]
  | .tlbinvWrite c _ | .rsquotaSet c _ | .rsquotaSelect c _ | .smpctlWrite c _ | .smpbaseWrite c _ | .smpsizeWrite c _
  | .smpwrWrite c _ | .smprdWrite c _ | .smpdropWrite c _ | .mmaStart c | .mmaKStep c _ | .rsfillComplete c _
  | .accumulatorEntryComplete c _ | .samplerTick c | .powerControllerInterval c _ | .droopDetect c
  | .droopHoldExpiry c => firstIll [coreOk c]
  | .slhashWrite i n _ => firstIll [siteOk i, unitOk n 2 .noSuchDomain]
  | .tpcWrite tk _ | .threadRecordRead tk | .longLatencyResult tk _ _ | .sleepWake tk
  | .deferredReport tk _ _ _ => firstIll [threadOk tk]
  | .controlRegisterWrite c tk n _ => firstIll [coreOk c, threadOk tk, unitOk n 4096 .noSuchControlRegister]
  | .qcfgWrite q _ | .qringWrite q _ | .qtailWrite q _ | .qtrigWrite q _ | .qgraphWrite q _ _ | .launchBegin q
  | .graphRunBegin q | .quantumExpiry q => firstIll [queueOk q]
  | .frameModeWrite i n _ => firstIll [siteOk i, unitOk n 16384 .wrongLength]
  | .bindRecordWrite c e _ => firstIll [coreOk c, bslotOk e]
  | .deviceRegisterWrite _ _ bs => firstIll [([1, 2, 4, 8, 16].contains bs.length, .wrongLength)]
  | .controlPortRegisterWrite p _ _ | .controlPortRegisterRead p _ => firstIll [controlPortOk p]
  | .graphUpload p g img =>
    firstIll [controlPortOk p, unitOk g 65535 .noSuchGraph, (decide (img.length ≤ 2 ^ 24), .wrongLength)]
  | .throttleGroupAssignment _ ds _ => firstIll (ds.map deviceOk)
  | .debuggerHalt c e | .debuggerResume c e | .blockEnd c e | .contextSaveComplete c e _
  | .drainmaxExpiry c e => firstIll [coreOk c, bslotOk e]
  | .threadRecordWrite tk bs => firstIll [threadOk tk, (bs.length == 256, .wrongLength)]
  | .attestation n => firstIll [(n.length == 32, .wrongLength)]
  | .inboundFilterAccess p d _ _ => firstIll [scaleUpPortOk p, deviceOk d]
  | .rdmaWrite p q _ _ _ | .rdmaRead p q _ _ | .rdmaSend p q _ | .rdmaCompareAndSwap p q _ _ _
  | .rdmaFetchAndAdd p q _ _ => firstIll [scaleOutPortOk p, unitOk q 65536 .noSuchQueue]
  | .doorbellWrite p q _ => firstIll [scaleOutPortOk p, unitOk q 65536 .noSuchQueue]
  | .cpLoad c e | .cpStore c e | .cpMove c e | .copyEngineFence c e => firstIll [coreOk c, unitOk e 2 .noSuchEngine]
  | .nmuFill i u | .nmuAxpy i u | .nmuSumReduce i u | .nmuScatterAdd i u | .nmuGather i u | .nmuReEncode i u
  | .nmuCustomCall i u _ _ _ | .nmuCallTimeout i u => firstIll [siteOk i, unitOk u 4 .noSuchUnit]
  | .attDecode i _ | .reservationClearing i | .replicationWindow i | .governorEvaluation i _ _ _ _ | .dramOvertemp i _
  | .quiltReservation i _ _ => firstIll [siteOk i]
  | .sensorTest i rs _ _ => firstIll [siteOk i, (rs.length == 36, .wrongLength)]
  | .sliceFence i n _ => firstIll [siteOk i, unitOk n 16 .noSuchL2Slice]
  | .pseudoChannelFailure i v => firstIll [siteOk i, unitOk v 4 .noSuchVault]
  | .flitCrcError (.mesh i m l) _ => firstIll [siteOk i, unitOk m 2 .noSuchMesh, unitOk l Machine.linksPerMesh .noSuchLink]
  | .flitCrcError (.hem n) _ => firstIll [unitOk n 16 .noSuchSegment]
  | .sliceCycle c n | .issueSliceFailure c n => firstIll [coreOk c, unitOk n 6 .noSuchSlice]
  | .roundValueReceived d _ => firstIll [deviceOk d]
  | .scaleUpPortTimeout p => firstIll [scaleUpPortOk p]
  | .asidTeardown a => firstIll [unitOk a 4096 .noSuchAsid]
  | .coldStart i | .warmStart i => firstIll [deviceOk i.devno, (decide (1 ≤ i.images.length ∧ i.images.length ≤ 16), .wrongLength)]
  | _ => none

/-- A term that stands for a step. -/
def Instr.wf (i : Instr) : Bool := i.check.isNone

end Sys2Proof
end

