-- ==== Sys2Proof/Safety.lean ====
section
/-!
DEFINITION. The words in which statements speak of the machine: a run that never stops, a thread that is alone in its stitch
and executes an instruction, what an instruction may change, and the forms of memory that a safe run keeps.
-/
namespace Sys2Proof.Machine

/-! ### Runs -/

/-- `n` steps from a state end in a next state: no fault and no refusal on the way. -/
def SafeFor (n : Nat) (s : State) : Prop := ∃ t, Host.Core.run Sys2Proof.core n s = .next t

/-- DRAM is held in its canonical form (log 1). -/
def State.memOk (s : State) : Prop := Memory.wf s.mem = true

/-- Every L2 line lies in a vault that is not lost, holds bytes of this device's DRAM and the poison of its own granules, and, unless
it is dirty, holds what DRAM holds (R63, R73, R404). -/
def State.linesOk (s : State) : Prop :=
  ∀ ln l, Sparse.get? s.lines ln = some l →
    s.ownDram (ln * 128) = true ∧ s.vaultLost (ln * 128) = false ∧
      (∀ c ∈ l.poison, c.1 / 8 = ln) ∧ (l.dirty = false → ∀ i, i < 128 → l.byte i = s.dramByte (ln * 128 + i))

/-! ### A thread that executes an instruction -/

/-- Thread `tk` of block `b` is the one member of the issuing stitch, live, with no trap waiting, on no speculative path, and with a PC
of 56 bits. -/
structure Alone (s : State) (tk : Nat) (t : Thread) (b : Block) : Prop where
  members : s.cur.members = [tk]
  thread : s.thread? tk = some t
  block : s.block? (tkBk tk) = some b
  live : t.exited = false
  noTrap : nextTrap t = none
  noSpec : t.spec = none
  top : t.pcTop = 0

/-- It executes an instruction with opcode `op` and fields `f`: its guard is true (R114), no check of chapter 22 rejects the word
(R370), and no source register carries a fault mark (R402). -/
structure Executes (op : Op) (f : Fields) (s : State) (tk : Nat) (t : Thread) (b : Block) : Prop extends Alone s tk t b where
  guard : guardOf t f = true
  word : wordTrap op f t b = none

/-! ### What an instruction may change -/

/-- Every byte of DRAM, as its home slice holds it, and every byte of every scratchpad reads as before. -/
structure SameBytes (s s' : State) : Prop where
  dram : ∀ pa, s'.homeByte pa = s.homeByte pa
  scratch : ∀ c o, Memory.read (s'.core c).scratch o = Memory.read (s.core c).scratch o

/-- What plain reads at home slices leave behind (R63 to R66): lines and the DRAM that an evicted one is written back to, counts of reads
from other sites, and frames noted as uncached; every byte of memory and everything else is as before. -/
structure OnlyReads (s s' : State) : Prop where
  bytes : SameBytes s s'
  rest : s' = { s with lines := s'.lines, sites := s'.sites, mem := s'.mem, poison := s'.poison, fresh := s'.fresh }
  sites : ∀ k, s'.site k = { s.site k with reads := (s'.site k).reads, uncachedIn := (s'.site k).uncachedIn }

/-- Beside `n` bytes from offset `o` of the scratchpad of core `c`, every byte of DRAM and of every scratchpad reads as before. -/
structure OnlyScratch (s s' : State) (c o n : Nat) : Prop where
  dram : ∀ pa, s'.homeByte pa = s.homeByte pa
  scratch : ∀ k i, ¬(k = c ∧ o ≤ i ∧ i < o + n) → Memory.read (s'.core k).scratch i = Memory.read (s.core k).scratch i

/-- Beside the eight bytes of a return-stack entry's place at `ea`, as far as it is mapped, every byte of DRAM and of every scratchpad reads
as before (R190). -/
structure OnlySpill (s s' : State) (core asid ea : Nat) : Prop where
  dram : ∀ pa, (∀ i e, i < 8 → s.walkAt core asid ((ea + i) / 65536 * 65536) = .ok e → s.effPa (e.pa (ea + i)) ≠ pa) →
    s'.homeByte pa = s.homeByte pa
  scratch : ∀ c o, Memory.read (s'.core c).scratch o = Memory.read (s.core c).scratch o

/-- The fields of a byte-barrier object (Table 9.3). -/
structure ObjFields where
  pending : Nat
  err : Bool
  expected : Nat
  arrived : Nat
  phase : Bool

/-- The fields of the object at offset `o` of core `c`. -/
def State.objFields (s : State) (c o : Nat) : ObjFields :=
  let x := s.obj c o
  ⟨(x.extractLsb' 0 40).toNat, x.getLsbD 40, (x.extractLsb' 48 16).toNat, (x.extractLsb' 64 16).toNat, x.getLsbD 80⟩

/-- Complete(O) (R199). -/
def ObjFields.complete (x : ObjFields) : ObjFields :=
  if x.arrived = x.expected ∧ (x.pending = 0 ∨ x.err = true) then { x with arrived := 0, phase := !x.phase } else x

/-- Registers v[d] … v[d+n−1] hold the number `x`, low word first (R116), without a fault mark; every other register and mark, the
predicates and the banked registers are as before. -/
structure WroteRegs (t u : Thread) (d n x : Nat) : Prop where
  regs : ∀ r, u.reg r = if d ≤ r ∧ r < d + n then BitVec.ofNat 32 (x / 2 ^ (32 * (r - d))) else t.reg r
  marks : ∀ r, Sparse.get? u.marks r = if d ≤ r ∧ r < d + n then none else Sparse.get? t.marks r
  preds : u.p = t.p
  banks : u.h = t.h

/-- Predicate p[i] is `x`, p0 apart (R117); every other predicate, every register and mark is as before. -/
structure WrotePred (t u : Thread) (i : Nat) (x : Bool) : Prop where
  regs : u.v = t.v
  marks : u.marks = t.marks
  banks : u.h = t.h
  preds : ∀ j, j < 8 → u.pred j = if j = i ∧ j ≠ 0 then x else t.pred j

/-- No register, mark, predicate or banked register has changed. -/
structure WroteNothing (t u : Thread) : Prop where
  regs : u.v = t.v
  marks : u.marks = t.marks
  preds : u.p = t.p
  banks : u.h = t.h

/-- The sticky flags `w` are set in a block's flag word, and nothing else of the block has changed but the record of the cycle in
which they were raised (R40, R79, R353). -/
structure FlagsSet (b c : Block) (h : FlagHome) (w : FlagWord) : Prop where
  rest : c = { b with flags := c.flags, raised := c.raised, trapSkeins := c.trapSkeins }
  skeins : ∀ k, Sparse.getD c.flags k 0 = if h = .skein k then Sparse.getD b.flags k 0 ||| w else Sparse.getD b.flags k 0
  traps : c.trapSkeins = b.trapSkeins.map (fun z => if h = .trap z.num then { z with flags := z.flags ||| w } else z)

/-- The thread retired and went to `pc` (R113, R114): what an instruction may write of its thread is its registers, marks,
predicates, banked registers, windows and the times at which results are ready; every other part, the exception registers, the
return stack, the skeins, %pst and the flags that are still to be set among them, is as before. -/
structure WentOn (t u : Thread) (pc : BitVec 56) : Prop where
  pc : u.pc = pc
  rest : u = { t with
    pc := u.pc, wait := .none, v := u.v, marks := u.marks, p := u.p, h := u.h, pends := u.pends, readyAt := u.readyAt
    predAt := u.predAt, bankAt := u.bankAt }

/-- The windows of `t` with one instruction less to issue each (R31); what a window notes for the registers and the predicate that a later
instruction writes is left aside. -/
def Thread.windowsOn (t u : Thread) : Prop :=
  u.pends.map (fun p => { p with overAt := [], predOver := 0 }) =
    t.pends.map (fun p => { p with left := p.left - 1, overAt := [], predOver := 0 })

/-- The flags `w` of an instruction are to be set in a cycle of the core that is not past (R168), after those that were already to be
set; no flags, and nothing changes. -/
def Thread.flagsOn (t u : Thread) (w : FlagWord) (now : Nat) : Prop :=
  ∃ d, now ≤ d ∧ u.flagsDue = t.flagsDue ++ (if w = 0 then [] else [(d, flagHome t, w)])

/-- An instruction that only computes has retired on its thread with the flags `w`: every other thread and every block, every open
window with one instruction less left, and every special register, every unit and every byte of memory is as before. -/
structure Computed (s s' : State) (tk : Nat) (t u : Thread) (b : Block) (w : FlagWord) : Prop where
  thread : s'.thread? tk = some u
  next : WentOn t { u with flagsDue := t.flagsDue } (pcNext t.pc)
  flags : t.flagsOn u w (s.now (tkCore tk))
  windows : t.windowsOn u
  others : ∀ k, k ≠ tk → s'.thread? k = s.thread? k
  block : s'.block? (tkBk tk) = some b
  blocks : s'.blocks = s.blocks
  rest : s' = { s with threads := s'.threads, fresh := s'.fresh, nextId := s'.nextId }
  bytes : SameBytes s s'

/-! ### Numbers -/

/-- The rational number that a finite value stands for. -/
def FV.rat : FV → Rat
  | .fin n m e => (if n then -1 else 1) * (m : Rat) * (2 : Rat) ^ e
  | _ => 0

/-- Whether a code of a format is finite. -/
def Fmt.finite (f : Fmt) (c : Nat) : Bool := decide (c < 2 ^ (f.signBit + 1) ∧ c % 2 ^ f.signBit ≤ f.maxCode)
/-- The rational number of a finite code. -/
def Fmt.rat (f : Fmt) (c : Nat) : Rat := (ofIeee f c).rat
/-- The largest finite number of a format. -/
def Fmt.top (f : Fmt) : Rat := f.rat f.maxCode

/-- The code `c` is the correct rounding of the number `x` among the codes of which `fin` is true (R76, R83): no such code lies
nearer in .rn, and in a tie the code is even; in .rz, .ru and .rd it is the last number on the way to zero, the least above and
the greatest below. -/
def RoundsOn (fin : Nat → Bool) (val : Nat → Rat) (rm : RM) (x : Rat) (c : Nat) : Prop :=
  fin c = true ∧
    match rm with
    | .rn => ∀ y, fin y = true →
        (val c - x) ^ 2 ≤ (val y - x) ^ 2 ∧ ((val c - x) ^ 2 = (val y - x) ^ 2 → val y ≠ val c → c % 2 = 0)
    | .rz => 0 ≤ val c * x ∧ val c ^ 2 ≤ x ^ 2 ∧ ∀ y, fin y = true → val y ^ 2 ≤ x ^ 2 → val y ^ 2 ≤ val c ^ 2
    | .ru => x ≤ val c ∧ ∀ y, fin y = true → x ≤ val y → val c ≤ val y
    | .rd => val c ≤ x ∧ ∀ y, fin y = true → val y ≤ x → val y ≤ val c

/-- Correct rounding into an IEEE format, for a number within its finite range. -/
def Rounds (f : Fmt) (rm : RM) (x : Rat) (c : Nat) : Prop := -f.top ≤ x → x ≤ f.top → RoundsOn f.finite f.rat rm x c

/-- Whether a binary8 code is finite (R81). -/
def b8Finite (code c : Nat) : Bool :=
  decide (c < 256) && match b8Value code c with | .zero _ | .fin _ _ _ => true | _ => false
/-- The number of a finite binary8 code. -/
def b8Rat (code c : Nat) : Rat := (b8Value code c).rat
/-- Correct rounding into a binary8 format, for a number between two finite codes of it. -/
def b8Rounds (code : Nat) (rm : RM) (x : Rat) (c : Nat) : Prop :=
  (∃ y, b8Finite code y = true ∧ b8Rat code y ≤ x) → (∃ y, b8Finite code y = true ∧ x ≤ b8Rat code y) →
    RoundsOn (b8Finite code) (b8Rat code) rm x c

/-- The integer `v` is the rounding of `x` in a mode (R176, R183). -/
def RoundsInt (rm : RM) (x : Rat) (v : Int) : Prop :=
  match rm with
  | .rn => ∀ n : Int, ((v : Rat) - x) ^ 2 ≤ ((n : Rat) - x) ^ 2 ∧ (((v : Rat) - x) ^ 2 = ((n : Rat) - x) ^ 2 → n ≠ v → v % 2 = 0)
  | .rz => v = if 0 ≤ x then x.floor else x.ceil
  | .ru => v = x.ceil
  | .rd => v = x.floor

/-- Whether an IEEE code is a NaN (R74). -/
def Fmt.nan (f : Fmt) (c : Nat) : Bool := decide (c % 2 ^ f.signBit > f.maxCode + 1)
/-- Whether it is a signalling NaN: the top bit of its fraction is 0 (R77). -/
def Fmt.signalling (f : Fmt) (c : Nat) : Bool := f.nan c && !c.testBit (f.p - 2)
/-- The sign bit of an IEEE code. -/
def Fmt.negative (f : Fmt) (c : Nat) : Bool := c.testBit f.signBit
/-- The place of an IEEE code in the order of numbers, in which both zeros are equal. -/
def Fmt.key (f : Fmt) (c : Nat) : Int := if f.negative c then -((c % 2 ^ f.signBit : Nat) : Int) else ((c % 2 ^ f.signBit : Nat) : Int)
/-- The INV that signalling operands raise (R77). -/
def Fmt.invOf (f : Fmt) (cs : List Nat) : FlagWord := if cs.any f.signalling then fINV else 0

/-- An FP32 result without a flag: a magnitude with a sign. -/
def signedOut (n : Bool) (m : Nat) : RegOut := { val := some (m + if n then 2 ^ 31 else 0), flags := 0 }

/-- `o` is the exact nonzero `x` rounded once to FP32 in a mode (R76, R77, R171): within the range the correct rounding with the sign of
`x`, and UNF where it is zero; beyond the largest finite number that number or infinity, as the mode directs, and OVF where the rounding
with no bound on the exponent lies beyond it. -/
def GivesRounded (rm : RM) (x : Rat) (o : RegOut) : Prop :=
  let size : Rat := if x < 0 then -x else x
  let away : Bool := decide ((rm = .rn ∧ (2 : Rat) ^ 128 - 2 ^ 103 ≤ size) ∨ (rm = .ru ∧ 0 < x) ∨ (rm = .rd ∧ x < 0))
  (x ≠ 0 → size ≤ fp32.top → ∃ y, o = { val := some y, flags := if fp32.rat y = 0 then fUNF else 0 } ∧ y < 2 ^ 32 ∧
    Rounds fp32 rm x y ∧ (fp32.negative y = true ↔ x < 0)) ∧
  (fp32.top < size → o = { signedOut (decide (x < 0)) (if away then 0x7F800000 else 0x7F7FFFFF) with
    flags := if away || decide (rm ≠ .rn ∧ (2 : Rat) ^ 128 ≤ size) then fOVF else 0 })

/-- A comparison of two IEEE codes (Table 6.8). -/
def Fmt.compares (f : Fmt) (cc a b : Nat) : Bool :=
  let un := f.nan a || f.nan b
  if cc = 0 then !un && decide (f.key a = f.key b)
  else if cc = 1 then un || decide (f.key a ≠ f.key b)
  else if cc = 2 then !un && decide (f.key a < f.key b)
  else if cc = 3 then !un && decide (f.key a ≤ f.key b)
  else if cc = 4 then !un && decide (f.key b < f.key a)
  else if cc = 5 then !un && decide (f.key b ≤ f.key a)
  else if cc = 6 then !un else un

/-- The lesser (`mx` false) or the greater of two IEEE codes, where −0 counts as less than +0 (R172). -/
def Fmt.extreme (f : Fmt) (mx : Bool) (a b : Nat) : Nat :=
  if f.nan a && f.nan b then f.nanCode
  else if f.nan a then b
  else if f.nan b then a
  else if decide (f.key a < f.key b) || (decide (f.key a = f.key b) && f.negative a) then (if mx then b else a)
  else (if mx then a else b)

/-- The class of an IEEE code: the bit of R175. -/
def Fmt.classOf (f : Fmt) (c : Nat) : Nat :=
  let m := c % 2 ^ f.signBit
  if f.nan c then (if f.signalling c then 8 else 9)
  else if m = f.maxCode + 1 then (if f.negative c then 0 else 7)
  else if m = 0 then (if f.negative c then 3 else 4)
  else if m < 2 ^ (f.p - 1) then (if f.negative c then 2 else 5)
  else if f.negative c then 1 else 6

/-! ### What an instruction answers -/

/-- Executing `i` ANSWERS THE NEXT STATE `s'`, and no byte of DRAM and of no scratchpad has changed on the way. -/
def Leaves (i : Instr) (s s' : State) : Prop := exec i s = .next s' ∧ SameBytes s s'

/-- Executing `i` ANSWERS A NEXT STATE in which the instruction has retired with the flags `w`, and n registers from v[D] hold a
number of which `P` is true. -/
def GivesRegs (i : Instr) (op : Op) (f : Fields) (s : State) (tk : Nat) (t : Thread) (b : Block) (w : FlagWord) (n : Nat)
    (P : Nat → Prop) : Prop :=
  Executes op f s tk t b →
    ∃ s' u x, exec i s = .next s' ∧ Computed s s' tk t u b w ∧ WroteRegs t u f.d.toNat n x ∧ P x

/-- Executing `i` ANSWERS A NEXT STATE in which the instruction has retired, and `P` is true of the number that n registers from v[D]
hold and of the flags that were raised. -/
def GivesFlagged (i : Instr) (op : Op) (f : Fields) (s : State) (tk : Nat) (t : Thread) (b : Block) (n : Nat)
    (P : Nat → FlagWord → Prop) : Prop :=
  Executes op f s tk t b →
    ∃ s' u x w, exec i s = .next s' ∧ Computed s s' tk t u b w ∧ WroteRegs t u f.d.toNat n x ∧ P x w

/-- Executing `i` ANSWERS A NEXT STATE in which the instruction has retired with the flags `w`, and p[D[2:0]] is `x` (p0 apart). -/
def GivesPred (i : Instr) (op : Op) (f : Fields) (s : State) (tk : Nat) (t : Thread) (b : Block) (w : FlagWord) (x : Bool) : Prop :=
  Executes op f s tk t b →
    ∃ s' u, exec i s = .next s' ∧ Computed s s' tk t u b w ∧ WrotePred t u (f.d.toNat % 8) x

/-- A thread has retired its instruction and opened the window `p` (R31): its registers are written later, nothing has changed but
the thread, and one identity and one free value have been drawn. -/
structure Opened (s s' : State) (tk : Nat) (t : Thread) (p : Pend) : Prop where
  thread : s'.thread? tk = some { t.retire with pends := t.retire.pends ++ [p] }
  others : ∀ k, k ≠ tk → s'.thread? k = s.thread? k
  rest : s' = { s with threads := s'.threads, fresh := s.fresh + 1, nextId := s.nextId + 1 }
  bytes : SameBytes s s'

/-- Executing `i` ANSWERS A NEXT STATE in which a window of the instruction is open with LA more instructions to issue, whose n
registers from v[D] will receive the number `x`, known but not yet landed (R31, R168). -/
def OpensKnown (i : Instr) (op : Op) (f : Fields) (s : State) (tk : Nat) (t : Thread) (b : Block) (n x : Nat) (w : FlagWord) :
    Prop :=
  Executes op f s tk t b →
    ∃ s' p, exec i s = .next s' ∧ Opened s s' tk t p ∧ p.op = op ∧ p.left = f.la.toNat ∧ p.ready = true ∧ p.mark = none ∧
      p.flags = w ∧ p.home = flagHome t ∧ p.pred = none ∧ p.regs = (List.range n).map (f.d.toNat + ·) ∧
      ∀ i, i < n → Sparse.get? p.vals (f.d.toNat + i) = some (BitVec.ofNat 32 (x / 2 ^ (32 * i)))

/-- The thread has taken the trap `x` and entered its handler (R351, R353, R355): the trap registers hold what the cause gives and `tpc`,
the mode is trap, the banked registers are cleared, and the thread is a member of the trap skein of its issue and core cycle: one that is
there, or a new one with the lowest number that no other shows. What the entry replaced is kept for the rest of the cycle (R364); nothing
else has changed. -/
structure Entered (s s' : State) (tk : Nat) (t : Thread) (b : Block) (x : TrapInfo) (tpc : BitVec 56) (issue : Nat) : Prop where
  entry : ∃ z c, s'.thread? tk = some { t.dropHeld with
      pc := Sparse.getD s.tvec b.asid 0, mode := .trap, tpc := tpc.setWidth 64, tcause := BitVec.ofNat 64 x.cause
      tval := BitVec.ofNat 64 x.tval, tinfo := BitVec.ofNat 64 x.tinfo, h := [], trapSkein := some z.num, wait := .none
      pendTrap := none, pendFault := none, walkFail := none, entering := x.cause } ∧
    s'.block? (tkBk tk) = some c ∧ c = { b with trapSkeins := c.trapSkeins, trapCount := c.trapCount } ∧ z ∈ c.trapSkeins ∧ z.key = (issue, s.clk) ∧
    tkThr tk ∈ z.members ∧ tkThr tk ∈ z.phase.waiting ∧
    ((∀ y ∈ b.trapSkeins, y.key ≠ (issue, s.clk)) → c.trapSkeins = b.trapSkeins ++ [z] ∧ z.members = [tkThr tk] ∧ z.flags = 0 ∧
      z.num = b.trapCount ∧ c.trapCount = b.trapCount + 1 ∧
      (∀ y ∈ b.trapSkeins, y.tag ≠ z.tag) ∧ ∀ m, m < z.tag → ∃ y ∈ b.trapSkeins, y.tag = m)
  others : ∀ k, k ≠ tk → s'.thread? k = s.thread? k
  blocks : ∀ k, k ≠ tkBk tk → s'.block? k = s.block? k
  rest : s' = { s with threads := s'.threads, blocks := s'.blocks, nextId := s'.nextId, taken := s'.taken }

/-- The parties that a probe reaches: its own, and the enablers of each that it has reached (R366). -/
inductive Reached (s : State) (p : Party) : Party → Prop where
  | self : Reached s p p
  | enabler (q e : Party) (es : List Party) : Reached s p q → s.enablers q = some es → e ∈ es → Reached s p e

/-! ### Engines -/

/-- `n` bytes from VA `va` of an ASID are mapped for the engines of a core by translations that its TLBs hold, byte k to `pa k` (R52,
R261): normal memory of this device with the permission needed (`w` for a write), of the core's own site for a near-memory unit
(`unit`, R271), in frames that keep R56, with no poison and nothing cut off. -/
structure State.Maps (s : State) (core asid : Nat) (unit w : Bool) (va n : Nat) (pa : Nat → Nat) : Prop where
  low : va + n ≤ 2 ^ 56
  page : ∀ k, k < n → ∃ e, s.tlbFind core asid ((va + k) / 65536) = some e ∧ pa k = e.base + (va + k - e.vpn * 65536) ∧
    (asid = 0 ∨ e.u = true) ∧ (w = true → e.w = true) ∧ e.mt = 0 ∧
    (unit = true → s.ownDram e.base = true ∧ paSite e.base = core / 4)
  whole : ∀ k, k < n → s.ownDram (pa k) = true ∧ s.vaultLost (pa k) = false ∧ s.poisonOf (pa k) = none ∧
    (s.site (paSite (pa k))).quadOk (frameOf (paOfs (pa k))) = true ∧ s.unreachable (core / 4) (pa k) = none

/-- The head of a queue is `c`, of block `b`, for an opcode that the engine runs: not bound for a graph node, and with no check of
chapter 24 against it (R263, R428). -/
structure Taken (s : State) (c : Cmd) (b : Block) (op : Nat) (check : Option (Nat × Nat × Nat)) : Prop where
  block : s.block? (tkBk c.tk) = some b
  op : c.op = op
  node : c.gnv = false
  header : headerCheck b c = none
  body : check = none

/-- A command of a core has been started by an engine, to land `n` bytes (R263, R269). -/
def Started (s' : State) (core engine : Nat) (c : Cmd) (n : Nat) (r : Running) : Prop :=
  r ∈ (s'.site (core / 4)).running ∧ r.core = core ∧ r.engine = engine ∧ r.cmd.id = c.id ∧ r.cmd.bytes = c.bytes ∧
    r.failed = none ∧ (r.pieces.map (·.land)).sum = n

/-! ### Accesses in flight -/

/-- The scope at which an access is performed: .sys in device-register space (R104), .stk at the widest in a scratchpad (R105). -/
def reach (p : Place) (sc : Scope) : Scope :=
  match p with
  | .dev _ => .sys
  | .scr _ => if sc = .sk then .sk else .stk
  | .dram _ _ => sc

/-- The thread has gone on as `u`, and its instruction has put one access for each piece of `ps` into flight, in their order and
behind every access that was there: what it does, where, with which ordering and scope, for which window, and whether %pst counts
it. Nothing else has changed (R95, R217, R218). -/
structure Sent (s s' : State) (tk : Nat) (t u : Thread) (ps : List PortPiece) (act : PortPiece → Action) (o : Ord) (sc : Scope)
    (pend : Option Nat) (counted : Bool) : Prop where
  thread : s'.thread? tk = some u
  others : ∀ k, k ≠ tk → s'.thread? k = s.thread? k
  rest : s' = { s with threads := s'.threads, reqs := s'.reqs, nextId := s'.nextId, fresh := s'.fresh }
  reqs : ∃ rs, s'.reqs = s.reqs ++ rs ∧ rs.length = ps.length ∧ ∀ (i : Nat) (p : PortPiece) (r : Req), ps[i]? = some p →
    rs[i]? = some r →
      r.tk = tk ∧ r.act = act p ∧ r.place = p.place ∧ r.ord = o ∧ r.scope = reach p.place sc ∧ r.stage = .held ∧ r.pend = pend ∧
      r.part = p.part ∧ r.counted = counted ∧ r.before = t.hb ∧ r.home = flagHome t ∧ s.nextId ≤ r.id ∧ r.id < s'.nextId
  bytes : SameBytes s s'

end Sys2Proof.Machine
end

