-- ==== Sys2Proof/Certificates/Slice0/Obligations.lean ====
section
/-!
DEFINITION. The statements for the provers. Each says what the manual's rules make of an instruction, an event or the machine;
its docstring names them. A value or a behaviour that the model chose stands with its log.
-/
open Sys2Proof Sys2Proof.Machine

/-! ### Steps and words (chapters 2 and 6) -/

/-- R23, R112, R311, R391, R393, R396, R460. A step of a machine that is not held: with a stitch selected whose instruction bytes its TLB and its code bytes
give, within one page or across two, it executes the instruction that they decode to (besides, the stitch leaves the queue and the instruction
cache and the home slice may be filled); a thread whose page denies U or X, or whose bytes are poisoned, enters its handler instead with the
fetch fault at its PC, and one whose page no TLB holds waits for a walk. With none selected, the head of the agenda is performed; with neither, the
next core cycle begins: that order is the model's choice (log 5). A held machine performs starts, and, once its recovery image has not verified, answers
management messages; that it drops the other steps and stops without any is the model's choice too (log 36). -/
def Obligations.AStepRunsTheDecodedInstruction : Prop :=
  ∀ (s : State),
    (∀ (z : Issue) (rest : List Issue) (tk : Nat) (more : List Nat) (t : Thread) (b : Block) (e e' : TlbEntry) (i : Instr),
      s.held = false → s.issueQ = z :: rest → s.liveMembers z = tk :: more → s.thread? tk = some t → s.block? (tkBk tk) = some b →
      t.pcTop = 0 → t.pc.toNat + 12 ≤ 2 ^ 56 → s.tlbFind (tkCore tk) b.asid (t.pc.toNat / 65536) = some e →
      s.tlbFind (tkCore tk) b.asid ((t.pc.toNat + 11) / 65536) = some e' → (e.hits b.asid ((t.pc.toNat + 11) / 65536) = true → e' = e) →
      let paOf (k : Nat) : Nat := if (t.pc.toNat + k) / 65536 = t.pc.toNat / 65536 then e.pa (t.pc.toNat + k) else e'.pa (t.pc.toNat + k)
      let barred : Prop := t.mode = .user ∧ b.asid ≠ 0 ∧ (e.u = false ∨ e'.u = false)
      let faults (x : TrapInfo) : Prop := more = [] → t.mode = .user → t.spec = none → t.pends = [] → nextTrap t = none →
        Sparse.getD s.tvec b.asid 0 ≠ 0 → b.trapSkeins.length < 3072 →
        ∃ s', step s = .next s' ∧ SameBytes s s' ∧ Entered { s with issueQ := rest, cur := { z with members := [tk] } } s' tk t b x t.pc z.id
      (¬barred → e.x = true → e'.x = true → (∀ k, k < 12 → s.codePoison (tkCore tk) (paOf k) = none) →
        decode ((List.range 12).map (fun k => s.codeByte (tkCore tk) (paOf k))) = .ok (i, []) →
        ∃ u, step s = exec i u ∧ u.cur = { z with members := tk :: more } ∧ u.issueQ = rest ∧
          u = { s with
            issueQ := u.issueQ, cur := u.cur, cores := u.cores, fresh := u.fresh, lines := u.lines, sites := u.sites, mem := u.mem
            poison := u.poison } ∧ (s.memOk → s.linesOk → SameBytes s u) ∧
          (∀ k, k ≠ z.core → u.core k = s.core k) ∧ u.core z.core = { s.core z.core with icache := (u.core z.core).icache }) ∧
      (barred → faults ⟨0x05, t.pc.toNat, 5 * 16⟩) ∧
      (¬barred → e.x = false ∨ e'.x = false → faults ⟨0x05, t.pc.toNat, 2 * 2 ^ 16 + 5 * 16⟩) ∧
      ∀ k o, ¬barred → e.x = true → e'.x = true → k < 12 → s.codePoison (tkCore tk) (paOf k) = some o →
        (∀ j, j < k → s.codePoison (tkCore tk) (paOf j) = none) → faults ⟨0x14, t.pc.toNat, o * 2 ^ 16 + 5 * 16⟩) ∧
    (∀ (z : Issue) (rest : List Issue) (tk : Nat) (t : Thread) (b : Block),
      s.held = false → s.issueQ = z :: rest → s.liveMembers z = [tk] → s.thread? tk = some t → s.block? (tkBk tk) = some b →
      t.pcTop = 0 → nextTrap t = none → t.walkFail = none → t.wait = .none → (s.core (tkCore tk)).det = false →
      s.tlbFind (tkCore tk) b.asid (t.pc.toNat / 65536) = none → (∀ w ∈ s.walks, ¬(w.core = tkCore tk ∧ w.asid = b.asid ∧ w.vpn = t.pc.toNat / 65536)) →
      ∃ s' w, step s = .next s' ∧ s'.walks = s.walks ++ [w] ∧ w.core = tkCore tk ∧ w.asid = b.asid ∧ w.vpn = t.pc.toNat / 65536 ∧
        s'.thread? tk = some { t with wait := .walk w.id, waitSince := s.clk } ∧ (∀ k, k ≠ tk → s'.thread? k = s.thread? k) ∧
        s' = { s with issueQ := rest, cur := s'.cur, walks := s'.walks, threads := s'.threads, nextId := s.nextId + 1, fresh := s.fresh + 1 }) ∧
    (∀ i rest, s.held = false → s.issueQ = [] → s.agenda = i :: rest → step s = exec i { s with agenda := rest }) ∧
    (s.held = false → s.issueQ = [] → s.agenda = [] → ∃ u, step s = .next u ∧ u.clk = s.clk + 1 ∧ u.issueQ = []) ∧
    (∀ i rest, s.held = true → s.agenda = i :: rest →
      let tells : Prop := (∃ c, i = .startCommand c) ∨ ∃ g ds o, i = .throttleGroupAssignment g ds o
      let starts : Prop := ∃ x, i = .coldStart x ∨ i = .warmStart x
      (starts ∨ (tells ∧ s.bootFailed = false) → step s = exec i { s with agenda := rest }) ∧
      (tells → s.bootFailed = true → step s = .next { s with agenda := rest, out := s.out ++ [.report "package failure" []] }) ∧
      (¬starts → ¬tells → step s = .next { s with agenda := rest })) ∧
    (s.held = true → s.agenda = [] → step s = .fault .heldInReset)

/-- R112, R129, Table 6.20. The four words that the manual encodes as examples, written out as their three 32-bit words, decode to the instructions
they stand for, and those encode to them. -/
def Obligations.TheManualsWords : Prop :=
  let word (hi mid lo : BitVec 32) : List Byte := leBytes 4 lo.toNat ++ leBytes 4 mid.toNat ++ leBytes 4 hi.toNat
  let is (bs : List Byte) (i : Instr) : Prop := decode bs = .ok (i, []) ∧ encode i = bs
  let v (n : BitVec 8) : Src := ⟨.v, n⟩
  let plain : Fields :=
    { fn := 0, gn := false, gp := 0, la := 0, hold := .none, bh := .pred, d := 0, a := v 0, b := v 0, x := 0, imm := 0 }
  is (word 0x23001000 0x40140604 0x00000000) (.ffma { plain with gp := 1, d := 4, a := v 5, b := v 6, x := 4 }) ∧
  is (word 0x803A0200 0x70080000 0x00000040) (.gld { plain with fn := 0x3A, la := 2, d := 7, a := v 2, imm := 0x40 }) ∧
  is (word 0x60003020 0x00000000 0x0000006C) (.bra { plain with gp := 3, bh := .wait, imm := 0x6C }) ∧
  is (word 0x05000000 0x00030001 0x00000100) (.imad { plain with b := ⟨.imm, 0⟩, x := 1, imm := 0x100 })

/-- R112, R129, R130. Decoding and encoding agree, both ways: every well-formed instruction that is a word comes back from its twelve bytes with
every field at every value, whatever bytes follow; every word of 96 bits is the encoding of what it decodes to, and a word has an
instruction of the tables exactly where its opcode byte is assigned. -/
def Obligations.DecodeAndEncodeAgree : Prop :=
  (∀ (i : Instr) (w : IWord) (rest : List Byte), i.wf = true → encodeWord i = some w →
    encode i = bytesOfWord w ∧ decode (encode i ++ rest) = .ok (i, rest)) ∧
  (∀ (w : IWord), encodeWord (decodeWord w) = some w ∧ (decodeWord w).wf = true ∧ decode (bytesOfWord w) = .ok (decodeWord w, []) ∧
    ((decodeWord w).op?.isSome = true ↔ (Op.ofCode (w.extractLsb' 88 8)).isSome = true)) ∧
  ∀ (o : Op) (f : Fields), Op.ofCode o.code = some o ∧ encodeWord (o.instr f) = some (wordOf o.code f)

/-- R114, R130, R131, R370. An instruction whose guard is false has no effect but to go to PC + 12. With a true guard, a privileged one in
user mode with an ASID other than 0 takes cause 0x02, one that a check rejects or that would read a marked register takes the cause
and the TVAL and TINFO of that, and an unassigned opcode takes cause 0x01; none of them has another effect. NOP, which ignores its guard, is not among them. An instruction of the matrix queue whose guard is false
goes on only when its stitch has entered (R239). -/
def Obligations.GuardsAndRejections : Prop :=
  ∀ (op : Op) (opc : Byte) (f : Fields) (s : State) (tk : Nat) (t : Thread) (b : Block), op ≠ .nop → Alone s tk t b →
    let i := op.instr f
    let takes (i : Instr) (x : TrapInfo) : Prop := Leaves i s (s.takeTrap tk x s.cur.id false)
    let kernel : Bool := op == .tret || op == .crrd || op == .crwr
    let entering : Prop := op ∈ [Op.mma, .rsfill, .accz, .accld, .accst, .accadd, .accmov] ∧
      (s.threadsOf (tkBk tk)).any (fun c => c.1 != tk && !c.2.exited && c.2.wait == .matrixRoom s.cur.id) = true
    (guardOf t f = false → (op ∈ [Op.bra, .jmpi, .call, .calli, .ret] → f.gp = 0) → ¬entering → Leaves i s (s.setThread tk t.retire)) ∧
    (guardOf t f = false → entering → ∃ k, Leaves i s (s.setThread tk { t.retire with wait := .mates s.cur.id, waitSince := k })) ∧
    (guardOf t f = false → Leaves (.unassignedOpcode opc f) s (s.setThread tk t.retire)) ∧
    (guardOf t f = true →
      (kernel = true → t.mode = .user → b.asid ≠ 0 → takes i ⟨0x02, op.code.toNat, 0⟩) ∧
      (∀ x, rejection op op.code.toNat t b f = some x → takes i x) ∧
      (∀ r m, rejection op op.code.toNat t b f = none → (regsRead op b.limits f).find? (fun r => (Sparse.get? t.marks r).isSome) = some r →
        Sparse.get? t.marks r = some m → takes i ⟨m.cause, 2 ^ 63 + r, m.sub * 2 ^ 16 + op.code.toNat * 2 ^ 8⟩) ∧
      (Op.ofCode opc = none → takes (.unassignedOpcode opc f) ⟨0x01, opc.toNat, opc.toNat * 2 ^ 8⟩))

/-- R24, R26, R27, R29, R207, R297, R441. One cycle of a slice that holds nothing back from before. One ready thread issues; of two at different PCs in one
lane the lower PC issues; two at one PC in different lanes issue together. A cycle that the cap withholds (counter 7) or that completes an extra row
(counter 6: one in each slice cycle, and in a withheld one too, which is the model's reading, log 20) issues nothing, and a failed slice or a fenced core has no cycle. -/
def Obligations.SliceCycles : Prop :=
  ∀ (s : State) (core sl : Nat),
    let x := s.slice core sl
    let cycle : Instr := .sliceCycle core sl
    let idle : Prop := x.failed = false ∧ (s.core core).fenced = false
    let plain (c : Nat × Thread × Block) : Prop := c.2.1.wait = .none ∧ c.2.1.spec = none ∧ (∀ p ∈ c.2.1.pends, p.left ≠ 0) ∧
      (c.2.1.exited = true ∨ s.fetchMiss c.1 c.2.1 c.2.2 = none)
    let ready (c : Nat × Thread × Block) : Prop := plain c ∧ s.isReady c.1 c.2.1 c.2.2 = true ∧ c.2.1.replayed = false
    let cap := min ([8, 8, 6, 6, 4, 3, 2, 1].getD (s.applied (core / 4)) 1) (if (s.core core).det then 8 else (s.core core).pcap)
    let issues (zs : List Issue) : Prop := ∃ s', Leaves cycle s s' ∧ s'.issueQ = s.issueQ ++ zs ∧
      (s'.slice core sl).cycle = x.cycle + 1 ∧
      s' = { s with issueQ := s'.issueQ, nextId := s.nextId + zs.length, slices := s'.slices, threads := s'.threads } ∧
      (∀ z ∈ zs, ∀ k ∈ z.members, s'.thread? k = (s.thread? k).map (fun t => { t with issued := z.id })) ∧
      (∀ k, (∀ z ∈ zs, k ∉ z.members) → s'.thread? k = s.thread? k) ∧ ∀ c l, s'.slice c l = s.slice c l ∨ (c = core ∧ l = sl) ∨ c * 6 + l = core * 6 + sl
    let counts (n : Nat) : Prop := ∃ s', Leaves cycle s s' ∧ s'.issueQ = s.issueQ ∧ s'.nextId = s.nextId ∧ s'.threads = s.threads ∧
      Sparse.getD (s'.slice core sl).counters n 0 = Sparse.getD x.counters n 0 + 1
    let one (c : Nat × Thread × Block) (l : List Nat) (z : Issue) : Prop :=
      z.core = core ∧ z.slice = sl ∧ z.bslot = tkSlotEntry c.1 ∧ z.pc = c.2.1.pc ∧ z.mode = c.2.1.mode ∧ z.members = l ∧ z.id = s.nextId
    let lane (c : Nat × Thread × Block) : Nat := tkThr c.1 % 32
    let goes : Prop := idle ∧ x.table = [] ∧ x.unlisted = [] ∧ x.owed = 0 ∧ x.cycle % 8 < cap
    (x.failed = true ∨ (s.core core).fenced = true → Leaves cycle s s) ∧
    (idle → (∀ c ∈ s.sliceThreads core sl, plain c) → cap ≤ x.cycle % 8 → counts 7) ∧
    (idle → (∀ c ∈ s.sliceThreads core sl, plain c) → 0 < x.owed → counts 6) ∧
    (goes → s.sliceThreads core sl = [] → issues []) ∧
    (∀ c, goes → s.sliceThreads core sl = [c] → ready c → ∃ z, one c [c.1] z ∧ issues [z]) ∧
    (∀ c d, goes → s.sliceThreads core sl = [c, d] → ready c → ready d → lane c = lane d →
      (c.2.1.pc.toNat < d.2.1.pc.toNat → ∃ z, one c [c.1] z ∧ issues [z]) ∧
      (d.2.1.pc.toNat < c.2.1.pc.toNat → ∃ z, one d [d.1] z ∧ issues [z])) ∧
    ∀ c d, goes → s.sliceThreads core sl = [c, d] → ready c → ready d → c.2.1.pc = d.2.1.pc → c.2.1.mode = d.2.1.mode →
      tkSlotEntry c.1 = tkSlotEntry d.1 → lane c < lane d → ∃ z, one c [c.1, d.1] z ∧ issues [z]

/-! ### The whole machine -/

/-- R5, R47, R68 (log 1). DRAM keeps its canonical form: in every state in which memory lists addresses that rise, each once, and no byte equal to
what an unlisted one reads as, the memory after any step does so too. -/
def Obligations.EveryStepKeepsMemoryCanonical : Prop :=
  ∀ (s s' : State), s.memOk → step s = .next s' → s'.memOk

/-- R319, R459, R460, Table 3.2. No step but a start changes DEVNO or the measurements or unlocks them, whatever the state: not a word of any mode, not a
write of a device register, not an access from another device. -/
def Obligations.OnlyAStartChangesDevnoAndMeasure : Prop :=
  ∀ (i : Instr) (s s' : State), exec i s = .next s' → (∀ x, i ≠ .coldStart x ∧ i ≠ .warmStart x) →
    s'.devno = s.devno ∧ s'.measure = s.measure ∧ s'.measureLocked = s.measureLocked

/-- R18, R44, R55, R58, R65, R205, R208, R237, R276, R295, R298, R300, R301, R318. The state right after reset: memory in its canonical form, nothing resident, held or in
flight, and every register at the value that the manual gives it for reset. -/
def Obligations.ResetState : Prop :=
  let s := State.reset
  s.memOk ∧ s.linesOk ∧ s.held = false ∧ s.measureLocked = true ∧ s.threads = [] ∧ s.blocks = [] ∧ s.reqs = [] ∧ s.lines = [] ∧
  s.launches = [] ∧ s.issueQ = [] ∧ s.drainMax = 20 ∧
  (∀ site F, (s.site site).frameMode F = 0 ∧ (s.site site).smask0 = 0xFFFF#16 ∧ (s.site site).fmask0 = 0x1FFFFFFF#29 ∧
    (s.site site).gen0 = 0 ∧ (s.site site).smask1 = 0xFFFF#16 ∧ (s.site site).fmask1 = 0x1FFFFFFF#29 ∧ (s.site site).gen1 = 0 ∧
    (s.site site).rthresh = 256 ∧ (s.site site).wthresh = 4 ∧ (s.site site).applied = 0) ∧
  (∀ core, (s.core core).budget = 0x160 ∧ (s.core core).lvl = 12 ∧ (s.core core).integ = 0 ∧ (s.core core).nrat = 8 ∧
    (s.core core).pcap = 8 ∧ (s.core core).drhold = 2000 ∧ (s.core core).det = false ∧ (s.core core).en = false ∧
    (s.core core).allocCtr = 1 ∧ (s.core core).dir = []) ∧
  (∀ q, (Sparse.getD s.queues q Queue.reset).en = false ∧ (Sparse.getD s.queues q Queue.reset).quant = 2000) ∧
  ∀ core sl n, Sparse.getD (s.slice core sl).counters n 0 = 0

/-! ### Class 000 (chapter 7) -/

/-- R148. IADD, ISUB, IMUL, IMULHI, IMAD, IMIN, IMAX and IABS compute on exact integers, clamp under .sat (the three that have
it), and write the result modulo 2^W; they raise no flag and change nothing else.
R149, R150. IMULW writes the exact 64-bit product, ISAD adds an absolute difference to C modulo 2^32, and LEA adds a scaled
index to a 64-bit base. -/
def Obligations.IntegerArithmetic : Prop :=
  (∀ (f : Fields) (s : State) (tk : Nat) (t : Thread) (b : Block),
    let w := widthOf f
    let int (x : Nat) : Int := if f.signed then (BitVec.ofNat w x).toInt else ((BitVec.ofNat w x).toNat : Int)
    let sat (y : Int) : Int :=
      if !f.sat then y else if f.signed then min (max y (-(2 ^ (w - 1)))) (2 ^ (w - 1) - 1) else min (max y 0) (2 ^ w - 1)
    let gives (i : Instr) (op : Op) (g : Int → Int → Int → Int) : Prop :=
      GivesRegs i op f s tk t b 0 f.wregs (fun x =>
        BitVec.ofNat w x = BitVec.ofInt w (g (int (opndA op t b f)) (int (opndB op t b f)) (int (opndC op t b f))))
    gives (.iadd f) .iadd (fun a b _ => sat (a + b)) ∧
    gives (.isub f) .isub (fun a b _ => sat (a - b)) ∧
    gives (.imul f) .imul (fun a b _ => a * b) ∧
    gives (.imulhi f) .imulhi (fun a b _ => a * b / 2 ^ w) ∧
    gives (.imad f) .imad (fun a b c => sat (a * b + c)) ∧
    gives (.imin f) .imin (fun a b _ => min a b) ∧
    gives (.imax f) .imax (fun a b _ => max a b) ∧
    gives (.iabs f) .iabs (fun a _ _ => if a < 0 then -a else a)) ∧
  (∀ (f : Fields) (s : State) (tk : Nat) (t : Thread) (b : Block),
    let int (x : Nat) : Int := if f.signed then (BitVec.ofNat 32 x).toInt else ((BitVec.ofNat 32 x).toNat : Int)
    GivesRegs (.imulw f) .imulw f s tk t b 0 2 (fun x =>
      BitVec.ofNat 64 x = BitVec.ofInt 64 (int (opndA .imulw t b f) * int (opndB .imulw t b f))) ∧
    GivesRegs (.isad f) .isad f s tk t b 0 1 (fun x =>
      BitVec.ofNat 32 x =
        BitVec.ofNat 32 ((int (opndA .isad t b f) - int (opndB .isad t b f)).natAbs + opndC .isad t b f)) ∧
    GivesRegs (.lea f) .lea f s tk t b 0 2 (fun x =>
      BitVec.ofNat 64 x =
        BitVec.ofNat 64 (opndA .lea t b f) +
          ((if f.wide then BitVec.ofNat 64 (opndB .lea t b f)
            else if f.signed then (BitVec.ofNat 32 (opndB .lea t b f)).signExtend 64
            else (BitVec.ofNat 32 (opndB .lea t b f)).setWidth 64) <<< (f.x.extractLsb' 0 4).toNat)))

/-- R151, R152, R159. ICMP compares two integers into a predicate, SEL takes source A or B by the predicate that X names, and PLOP
looks three predicates up in IMM[7:0]. -/
def Obligations.ComparesAndSelects : Prop :=
  ∀ (f : Fields) (s : State) (tk : Nat) (t : Thread) (b : Block),
    let w := widthOf f
    let int (x : Nat) : Int := if f.signed then (BitVec.ofNat w x).toInt else ((BitVec.ofNat w x).toNat : Int)
    let x := int (opndA .icmp t b f)
    let y := int (opndB .icmp t b f)
    (f.top3 = 0 → GivesPred (.icmp f) .icmp f s tk t b 0 (decide (x = y))) ∧
    (f.top3 = 1 → GivesPred (.icmp f) .icmp f s tk t b 0 (decide (x ≠ y))) ∧
    (f.top3 = 2 → GivesPred (.icmp f) .icmp f s tk t b 0 (decide (x < y))) ∧
    (f.top3 = 3 → GivesPred (.icmp f) .icmp f s tk t b 0 (decide (x ≤ y))) ∧
    (f.top3 = 4 → GivesPred (.icmp f) .icmp f s tk t b 0 (decide (x > y))) ∧
    (f.top3 = 5 → GivesPred (.icmp f) .icmp f s tk t b 0 (decide (x ≥ y))) ∧
    GivesRegs (.sel f) .sel f s tk t b 0 f.wregs (fun r =>
      BitVec.ofNat w r =
        BitVec.ofNat w (if (t.pred (f.x.toNat % 8) ^^ f.x.getLsbD 3) then opndA .sel t b f else opndB .sel t b f)) ∧
    GivesPred (.plop f) .plop f s tk t b 0
      (f.imm.getLsbD (4 * bit1 (t.pred (f.a.idx.toNat % 8)) + 2 * bit1 (t.pred (f.b.idx.toNat % 8)) +
        bit1 (t.pred (f.x.toNat % 8))))

/-- R153 to R155. AND, OR, XOR and ANDN act bit by bit; SHL, SHR and SHA shift by the whole 32-bit value of source B, so that W or
more empties the result or fills it with the sign; SHF shifts B:A right and keeps the low word.
R156 to R158. BFX and BFI take and put a field that ends at the top of the word at the latest; POPC counts the ones, CLZ the
zeros above the highest one, BREV turns the bits round, and PERM builds a word from eight bytes. -/
def Obligations.LogicShiftsAndBitFields : Prop :=
  (∀ (f : Fields) (s : State) (tk : Nat) (t : Thread) (b : Block),
    let w := widthOf f
    let gives (i : Instr) (op : Op) (g : BitVec w → BitVec w → BitVec w) : Prop :=
      GivesRegs i op f s tk t b 0 f.wregs (fun x =>
        BitVec.ofNat w x = g (BitVec.ofNat w (opndA op t b f)) (BitVec.ofNat w (opndB op t b f)))
    let shifts (i : Instr) (op : Op) (g : BitVec w → Nat → BitVec w) : Prop :=
      GivesRegs i op f s tk t b 0 f.wregs (fun x =>
        BitVec.ofNat w x = g (BitVec.ofNat w (opndA op t b f)) (BitVec.ofNat 32 (opndB op t b f)).toNat)
    gives (.and f) .and (fun a b => a &&& b) ∧
    gives (.or f) .or (fun a b => a ||| b) ∧
    gives (.xor f) .xor (fun a b => a ^^^ b) ∧
    gives (.andn f) .andn (fun a b => a &&& ~~~b) ∧
    shifts (.shl f) .shl (fun a n => a <<< n) ∧
    shifts (.shr f) .shr (fun a n => a >>> n) ∧
    shifts (.sha f) .sha (fun a n => a.sshiftRight n) ∧
    GivesRegs (.shf f) .shf f s tk t b 0 1 (fun x =>
      BitVec.ofNat 32 x =
        ((BitVec.ofNat 32 (opndB .shf t b f) ++ BitVec.ofNat 32 (opndA .shf t b f)) >>>
          (opndC .shf t b f % 64)).setWidth 32)) ∧
  (∀ (f : Fields) (s : State) (tk : Nat) (t : Thread) (b : Block),
    let w := widthOf f
    let bit (op : Op) (i : Nat) : Bool := (BitVec.ofNat w (opndA op t b f)).getLsbD i
    let pos (op : Op) : Nat := min ((BitVec.ofNat 32 (opndB op t b f)).extractLsb' 0 8).toNat w
    let len (op : Op) : Nat := min ((BitVec.ofNat 32 (opndB op t b f)).extractLsb' 8 8).toNat (w - pos op)
    let e := BitVec.ofNat 32 (opndB .perm t b f) ++ BitVec.ofNat 32 (opndA .perm t b f)
    let sel (i : Nat) : Nat := ((BitVec.ofNat 32 (opndC .perm t b f)).extractLsb' (4 * i) 4).toNat
    GivesRegs (.bfx f) .bfx f s tk t b 0 f.wregs (fun x => ∀ i, i < w →
      (BitVec.ofNat w x).getLsbD i =
        if i < len .bfx then bit .bfx (pos .bfx + i)
        else f.signed && decide (len .bfx ≠ 0) && bit .bfx (pos .bfx + len .bfx - 1)) ∧
    GivesRegs (.bfi f) .bfi f s tk t b 0 f.wregs (fun x => ∀ i, i < w →
      (BitVec.ofNat w x).getLsbD i =
        if pos .bfi ≤ i ∧ i < pos .bfi + len .bfi then bit .bfi (i - pos .bfi)
        else (BitVec.ofNat w (opndC .bfi t b f)).getLsbD i) ∧
    GivesRegs (.popc f) .popc f s tk t b 0 1 (fun x => x = ((List.range w).filter (bit .popc)).length) ∧
    GivesRegs (.clz f) .clz f s tk t b 0 1 (fun x =>
      x ≤ w ∧ (∀ i, w - x ≤ i → i < w → bit .clz i = false) ∧ (x < w → bit .clz (w - 1 - x) = true)) ∧
    GivesRegs (.brev f) .brev f s tk t b 0 f.wregs (fun x => ∀ i, i < w →
      (BitVec.ofNat w x).getLsbD i = bit .brev (w - 1 - i)) ∧
    GivesRegs (.perm f) .perm f s tk t b 0 1 (fun x => ∀ i, i < 4 →
      (BitVec.ofNat 32 x).extractLsb' (8 * i) 8 =
        let byte := e.extractLsb' (8 * (sel i % 8)) 8
        if sel i < 8 then byte else if byte.getLsbD 7 then 0xFF#8 else 0x00#8))

/-- R160 to R165. MOV copies its source into the file that DF names, MOVSR reads a special register (%clk and %pst through a
window), LDKX reads a launch constant at a computed index, where 64 and more read 0, and NOP ignores its guard and every field. -/
def Obligations.MovesAndConstants : Prop :=
  ∀ (f : Fields) (s : State) (tk : Nat) (t : Thread) (b : Block),
    let w := widthOf f
    let k (j : Nat) : Word := if j < 64 then b.k j else 0
    let i := (opndA .ldkx t b f + f.x.toNat) % 2 ^ 32
    let special (n : Nat) : List (Nat × Nat) :=
      [(0, tkThr tk), (1, b.desc.ntid), (2, b.blk), (4, b.qrank), (5, b.desc.quilt), (6, tkThr tk % 32), (7, tkThr tk / 32 % 6),
        (8, tkThr tk / 192 + b.slotb), (9, b.core % 4), (10, b.core / 4), (11, b.asid)].filter (fun x => x.1 = n)
    (f.df = 0 → GivesRegs (.mov f) .mov f s tk t b 0 f.wregs (fun x => BitVec.ofNat w x = BitVec.ofNat w (opndA .mov t b f))) ∧
    (f.df = 1 → Executes .mov f s tk t b → ∃ s' u, exec (.mov f) s = .next s' ∧ Computed s s' tk t u b 0 ∧ u.v = t.v ∧
      u.p = t.p ∧ ∀ j, j < 8 → u.bank j = if j = f.d.toNat then BitVec.ofNat 32 (opndA .mov t b f) else t.bank j) ∧
    (f.df = 2 → GivesPred (.mov f) .mov f s tk t b 0 ((opndA .mov t b f).testBit 0)) ∧
    GivesRegs (.ldkx f) .ldkx f s tk t b 0 f.wregs (fun x =>
      BitVec.ofNat 32 x = k i ∧ (f.wide = true → BitVec.ofNat 64 x = k (i + 1) ++ k i)) ∧
    (∀ n x, (n, x) ∈ special n → f.a.idx.toNat = n →
      GivesRegs (.movsr f) .movsr f s tk t b 0 1 (fun y => y = x)) ∧
    (f.a.idx.toNat = 3 → GivesRegs (.movsr f) .movsr f s tk t b 0 2 (fun y => y = b.desc.nblk)) ∧
    (f.a.idx.toNat = 14 → GivesRegs (.movsr f) .movsr f s tk t b 0 2 (fun y => y = b.tlBase (tkThr tk))) ∧
    (f.a.idx.toNat = 12 → OpensKnown (.movsr f) .movsr f s tk t b 2 s.clk 0) ∧
    (f.a.idx.toNat = 13 → OpensKnown (.movsr f) .movsr f s tk t b 1 t.pst 0) ∧
    (Alone s tk t b → exec (.nop f) s = .next (s.setThread tk t.retire))

/-! ### Classes 001 and 010 (chapter 8) -/

/-- R166 to R168. Every instruction of class F that rounds answers a next state in which it has retired with the result and the
flags of its rule, as functions of the operands alone: FADD, FSUB, FMUL, FFMA, FRND, FSCL, FGETE, FGETM, the packed and the
converting instructions. What those functions are, the statements after this one say. -/
def Obligations.FloatResultsAreDelivered : Prop :=
  ∀ (f : Fields) (s : State) (tk : Nat) (t : Thread) (b : Block),
    let gives (i : Instr) (op : Op) (n : Nat) (g : Fields → Opnds → RegOut) : Prop :=
      GivesFlagged i op f s tk t b n (fun x w =>
        (g f (readOpnds op t b f)).val = some x ∧ w = (g f (readOpnds op t b f)).flags)
    gives (.fadd f) .fadd 1 outFadd ∧ gives (.fsub f) .fsub 1 outFsub ∧ gives (.fmul f) .fmul 1 outFmul ∧
    gives (.ffma f) .ffma 1 outFfma ∧ gives (.frnd f) .frnd 1 outFrnd ∧ gives (.fscl f) .fscl 1 outFscl ∧
    gives (.fgete f) .fgete 1 outFgete ∧ gives (.fgetm f) .fgetm 1 outFgetm ∧ gives (.hadd2 f) .hadd2 1 outHadd2 ∧
    gives (.hsub2 f) .hsub2 1 outHsub2 ∧ gives (.hmul2 f) .hmul2 1 outHmul2 ∧ gives (.hfma2 f) .hfma2 1 outHfma2 ∧
    gives (.hdot2 f) .hdot2 1 outHdot2 ∧ gives (.cvtf f) .cvtf 1 outCvtf ∧ gives (.cvtif f) .cvtif 1 outCvtif ∧
    gives (.cvtfi f) .cvtfi (if f.dt ≥ 2 then 2 else 1) outCvtfi ∧ gives (.cvtf8 f) .cvtf8 1 outCvtf8 ∧
    gives (.cvt8f f) .cvt8f 1 outCvt8f ∧ gives (.pk8 f) .pk8 1 outPk8 ∧ gives (.unpk8 f) .unpk8 2 outUnpk8 ∧
    gives (.pk16 f) .pk16 1 outPk16 ∧ gives (.unpk16 f) .unpk16 2 outUnpk16 ∧ gives (.cvtsf8 f) .cvtsf8 1 outCvtsf8

/-- R75, R76, R171, R177. FADD, FSUB, FMUL, FFMA and FSCL round the exact result of finite operands once: within the range of FP32 the code is its
correct rounding in mode RM with its sign, and UNF is raised if and only if a nonzero exact result was delivered as zero; beyond the largest finite
number it is that number or infinity, as the mode directs, and OVF is raised if the rounding with no bound on the exponent lies beyond it. An exact zero
sum is +0 but for two negative zeros and, of addends of opposite sign, in .rd; a zero product has the product's sign. An infinite operand gives
infinity. -/
def Obligations.FloatArithmeticRoundsOnce : Prop :=
  ∀ (f : Fields) (e : Opnds), e.a < 2 ^ 32 → e.b < 2 ^ 32 → e.c < 2 ^ 32 →
    let a := negBit e.a (f.fn.getLsbD 2)
    let b := negBit e.b (f.fn.getLsbD 1)
    let c := negBit e.c (f.fn.getLsbD 0)
    let A := fp32.rat a
    let B := fp32.rat b
    let C := fp32.rat c
    let rm := RM.of f.top2
    let rounds (o : RegOut) (x : Rat) : Prop := GivesRounded rm x o
    let signed := signedOut
    let zeroSum (o : RegOut) (m n : Bool) : Prop := o = signed ((m && n) || (m != n && decide (rm = .rd))) 0
    let neg := fp32.negative
    let inf (y : Nat) : Prop := y % 2 ^ 31 = 0x7F800000
    let fin (y : Nat) : Prop := fp32.finite y = true
    let infinite (o : RegOut) (n : Bool) : Prop := o = signed n 0x7F800000
    (fin a → fin b →
      rounds (outFadd f e) (A + B) ∧ (A + B = 0 → zeroSum (outFadd f e) (neg a) (neg b)) ∧
      rounds (outFsub f e) (A - B) ∧ (A - B = 0 → zeroSum (outFsub f e) (neg a) (!neg b)) ∧
      rounds (outFmul f e) (A * B) ∧ (A * B = 0 → outFmul f e = signed (neg a != neg b) 0) ∧
      (fin c → rounds (outFfma f e) (A * B + C) ∧ (A * B + C = 0 → zeroSum (outFfma f e) (neg a != neg b) (neg c))) ∧
      (inf c → infinite (outFfma f e) (neg c))) ∧
    (fin a → let n := (BitVec.ofNat 32 e.b).toInt
      rounds (outFscl f e) (A * (2 : Rat) ^ n) ∧ (A = 0 → outFscl f e = signed (neg a) 0)) ∧
    (inf a → infinite (outFscl f e) (neg a)) ∧
    (inf a → fin b ∨ (inf b ∧ neg b = neg a) → infinite (outFadd f e) (neg a)) ∧
    (inf a → fin b ∨ (inf b ∧ neg b ≠ neg a) → infinite (outFsub f e) (neg a)) ∧
    (fin a → inf b → infinite (outFadd f e) (neg b) ∧ infinite (outFsub f e) (!neg b)) ∧
    ((inf a ∧ (inf b ∨ (fin b ∧ B ≠ 0))) ∨ (inf b ∧ fin a ∧ A ≠ 0) →
      infinite (outFmul f e) (neg a != neg b) ∧
      (fin c ∨ (inf c ∧ neg c = (neg a != neg b)) → infinite (outFfma f e) (neg a != neg b)))

/-- R77, R171, R177. A NaN operand of FADD, FSUB, FMUL, FFMA, FRND, FSCL and FGETM gives the canonical NaN and raises NAN, and INV as
well if an operand is signalling; an invalid sum or product does so with INV.
R172 to R175. FMIN and FMAX take one operand's code, FCMP and FSET compare quietly (only a signalling NaN raises INV), FABS, FNEG
and FCPYS act on bits alone, FSAT clamps to [+0, 1], and FCLASS sets the one bit of the operand's class.
R176, R177. FRND of a finite operand is its rounding to an integer, with its sign and without a flag; FGETE gives the exponent of a
finite nonzero operand, with INV for any other, and FGETM the operand scaled into [1, 2). -/
def Obligations.FloatNaNsCodesAndParts : Prop :=
  (∀ (f : Fields) (e : Opnds), e.a < 2 ^ 32 → e.b < 2 ^ 32 → e.c < 2 ^ 32 →
    let A := negBit e.a (f.fn.getLsbD 2)
    let B := negBit e.b (f.fn.getLsbD 1)
    let C := negBit e.c (f.fn.getLsbD 0)
    let gives (o : RegOut) (cs : List Nat) : Prop :=
      cs.any fp32.nan = true → o = { val := some 0x7FC00000, flags := fNAN ||| fp32.invOf cs }
    let inf (c : Nat) : Prop := c % 2 ^ 31 = 0x7F800000
    let zero (c : Nat) : Prop := c % 2 ^ 31 = 0
    let invalid (o : RegOut) : Prop := o = { val := some 0x7FC00000, flags := fNAN ||| fINV }
    let zeroInf : Prop := (inf A ∧ zero B) ∨ (zero A ∧ inf B)
    gives (outFadd f e) [A, B] ∧ gives (outFsub f e) [A, B] ∧ gives (outFmul f e) [A, B] ∧
    (¬zeroInf → gives (outFfma f e) [A, B, C]) ∧
    gives (outFrnd f e) [A] ∧ gives (outFscl f e) [A] ∧ gives (outFgetm f e) [A] ∧
    (inf A → inf B → fp32.negative A ≠ fp32.negative B → invalid (outFadd f e)) ∧
    (inf A → inf B → fp32.negative A = fp32.negative B → invalid (outFsub f e)) ∧
    (zeroInf → invalid (outFmul f e) ∧ invalid (outFfma f e))) ∧
  (∀ (f : Fields) (s : State) (tk : Nat) (t : Thread) (b : Block),
    let A (op : Op) : Nat := negBit (opndA op t b f) (f.fn.getLsbD 2)
    let B (op : Op) : Nat := negBit (opndB op t b f) (f.fn.getLsbD 1)
    let bits (i : Instr) (op : Op) (g : Word → Word → Word) : Prop :=
      GivesRegs i op f s tk t b 0 1 (fun c =>
        BitVec.ofNat 32 c = g (BitVec.ofNat 32 (opndA op t b f)) (BitVec.ofNat 32 (opndB op t b f)))
    let both (op : Op) : FlagWord := if fp32.nan (A op) && fp32.nan (B op) then fNAN else 0
    GivesRegs (.fmin f) .fmin f s tk t b (both .fmin ||| fp32.invOf [A .fmin, B .fmin]) 1
      (fun c => c = fp32.extreme false (A .fmin) (B .fmin)) ∧
    GivesRegs (.fmax f) .fmax f s tk t b (both .fmax ||| fp32.invOf [A .fmax, B .fmax]) 1
      (fun c => c = fp32.extreme true (A .fmax) (B .fmax)) ∧
    GivesPred (.fcmp f) .fcmp f s tk t b (fp32.invOf [A .fcmp, B .fcmp]) (fp32.compares f.fcc (A .fcmp) (B .fcmp)) ∧
    GivesRegs (.fset f) .fset f s tk t b (fp32.invOf [A .fset, B .fset]) 1
      (fun c => c = if fp32.compares f.fcc (A .fset) (B .fset) then 0x3F800000 else 0) ∧
    bits (.fabs f) .fabs (fun a _ => a &&& 0x7FFFFFFF#32) ∧
    bits (.fneg f) .fneg (fun a _ => a ^^^ 0x80000000#32) ∧
    bits (.fcpys f) .fcpys (fun a b => (a &&& 0x7FFFFFFF#32) ||| (b &&& 0x80000000#32)) ∧
    GivesRegs (.fsat f) .fsat f s tk t b (fp32.invOf [A .fsat]) 1
      (fun c => c = if fp32.nan (A .fsat) || fp32.negative (A .fsat) then 0 else min (A .fsat) 0x3F800000) ∧
    GivesRegs (.fclass f) .fclass f s tk t b 0 1 (fun c => c = 2 ^ fp32.classOf (A .fclass))) ∧
  (∀ (f : Fields) (e : Opnds), e.a < 2 ^ 32 →
    let A := negBit e.a (f.fn.getLsbD 2)
    let a := fp32.rat A
    let abs (x : Rat) : Rat := if x < 0 then -x else x
    let gives (o : RegOut) (w : FlagWord) (P : Nat → Prop) : Prop := ∃ c, o = { val := some c, flags := w } ∧ P c
    (fp32.finite A = true → gives (outFrnd f e) 0 (fun c =>
      c / 2 ^ 31 = A / 2 ^ 31 ∧ ∃ v : Int, fp32.rat c = v ∧ RoundsInt (RM.of f.top2) a v)) ∧
    (fp32.finite A = true → A % 2 ^ 31 ≠ 0 → gives (outFgete f e) 0 (fun c =>
      (2 : Rat) ^ (BitVec.ofNat 32 c).toInt ≤ abs a ∧ abs a < (2 : Rat) ^ ((BitVec.ofNat 32 c).toInt + 1))) ∧
    (A % 2 ^ 31 = 0 → gives (outFgete f e) fINV (fun c => c = 0x80000000)) ∧
    (A % 2 ^ 31 ≥ 0x7F800000 → gives (outFgete f e) fINV (fun c => c = 0x7FFFFFFF)) ∧
    (fp32.finite A = true → A % 2 ^ 31 ≠ 0 → gives (outFgetm f e) 0 (fun c =>
      1 ≤ abs (fp32.rat c) ∧ abs (fp32.rat c) < 2 ∧ ∃ x : Int, fp32.rat c * (2 : Rat) ^ x = a)) ∧
    (A % 2 ^ 31 = 0 ∨ A % 2 ^ 31 = 0x7F800000 → gives (outFgetm f e) 0 (fun c => c = A)))

/-- R31, R168, R178. Each function-group instruction answers a next state in which its window is open with LA instructions left, and
its one register waits for the result of its rule, known but not yet landed; the special cases of Table 8.2 are as the table has
them.
R76, R178. FDIV and FRCP of finite operands round the exact quotient once, and a quotient beyond the range of FP32 as any result; FSQRT gives the
number next to the root in .rz, .rd and .ru, and in .rn the nearest. -/
def Obligations.FunctionsQuotientsAndRoots : Prop :=
  (∀ (f : Fields) (s : State) (tk : Nat) (t : Thread) (b : Block),
    let A (op : Op) : Nat := negBit (opndA op t b f) (f.fn.getLsbD 2)
    let B (op : Op) : Nat := negBit (opndB op t b f) (f.fn.getLsbD 1)
    let inf : Nat := 0x7F800000
    let opens (i : Instr) (op : Op) (g : Fields → Opnds → RegOut) (P : Nat → FlagWord → Prop) : Prop :=
      ∃ c w, g f (readOpnds op t b f) = { val := some c, flags := w } ∧ OpensKnown i op f s tk t b 1 c w ∧ P c w
    let is (c : Nat) (w : FlagWord) (c' : Nat) (w' : FlagWord) : Prop := c = c' ∧ w = w'
    let nanCase (op : Op) (c : Nat) (w : FlagWord) : Prop :=
      fp32.nan (A op) = true → is c w 0x7FC00000 (fNAN ||| fp32.invOf [A op])
    let invalid (c : Nat) (w : FlagWord) : Prop := is c w 0x7FC00000 (fNAN ||| fINV)
    let neg (op : Op) : Prop := 2 ^ 31 < A op ∧ A op ≤ 2 ^ 31 + inf
    opens (.fdiv f) .fdiv outFdiv (fun c w =>
      let sign : Nat := (A .fdiv / 2 ^ 31 + B .fdiv / 2 ^ 31) % 2 * 2 ^ 31
      (fp32.nan (A .fdiv) = true ∨ fp32.nan (B .fdiv) = true → is c w 0x7FC00000 (fNAN ||| fp32.invOf [A .fdiv, B .fdiv])) ∧
      (A .fdiv % 2 ^ 31 = 0 → B .fdiv % 2 ^ 31 = 0 → invalid c w) ∧
      (A .fdiv % 2 ^ 31 = inf → B .fdiv % 2 ^ 31 = inf → invalid c w) ∧
      (fp32.finite (A .fdiv) = true → B .fdiv % 2 ^ 31 = inf → is c w sign 0) ∧
      (A .fdiv % 2 ^ 31 = 0 → fp32.finite (B .fdiv) = true → B .fdiv % 2 ^ 31 ≠ 0 → is c w sign 0) ∧
      (A .fdiv % 2 ^ 31 = inf → fp32.finite (B .fdiv) = true → is c w (sign + inf) 0) ∧
      (fp32.finite (A .fdiv) = true → A .fdiv % 2 ^ 31 ≠ 0 → B .fdiv % 2 ^ 31 = 0 → is c w (sign + inf) 0)) ∧
    opens (.frcp f) .frcp outFrcp (fun c w => nanCase .frcp c w ∧ (A .frcp % 2 ^ 31 = 0 → is c w (A .frcp + inf) 0) ∧
      (A .frcp % 2 ^ 31 = inf → is c w (A .frcp - inf) 0)) ∧
    opens (.fsqrt f) .fsqrt outFsqrt (fun c w => nanCase .fsqrt c w ∧ (A .fsqrt = 2 ^ 31 → is c w (2 ^ 31) 0) ∧
      (neg .fsqrt → invalid c w) ∧ (A .fsqrt = inf → is c w inf 0)) ∧
    opens (.frsq f) .frsq outFrsq (fun c w => nanCase .frsq c w ∧ (A .frsq % 2 ^ 31 = 0 → is c w (A .frsq + inf) 0) ∧
      (neg .frsq → invalid c w) ∧ (A .frsq = inf → is c w 0 0)) ∧
    opens (.fexp2 f) .fexp2 outFexp2 (fun c w => nanCase .fexp2 c w ∧ (A .fexp2 = 2 ^ 31 + inf → is c w 0 0) ∧
      (A .fexp2 = inf → is c w inf 0) ∧ (A .fexp2 % 2 ^ 31 = 0 → is c w 0x3F800000 0)) ∧
    opens (.flog2 f) .flog2 outFlog2 (fun c w => nanCase .flog2 c w ∧ (A .flog2 % 2 ^ 31 = 0 → is c w (2 ^ 31 + inf) 0) ∧
      (neg .flog2 → invalid c w) ∧ (A .flog2 = 0x3F800000 → is c w 0 0) ∧ (A .flog2 = inf → is c w inf 0)) ∧
    opens (.fsinpi f) .fsinpi outFsinpi (fun c w => nanCase .fsinpi c w ∧ (A .fsinpi % 2 ^ 31 = inf → invalid c w) ∧
      ∀ n : Int, fp32.finite (A .fsinpi) = true → fp32.rat (A .fsinpi) = n → is c w (A .fsinpi / 2 ^ 31 * 2 ^ 31) 0) ∧
    opens (.fcospi f) .fcospi outFcospi (fun c w => nanCase .fcospi c w ∧ (A .fcospi % 2 ^ 31 = inf → invalid c w) ∧
      (A .fcospi % 2 ^ 31 = 0 → is c w 0x3F800000 0) ∧
      ∀ n : Int, fp32.finite (A .fcospi) = true → fp32.rat (A .fcospi) = n + 1 / 2 → is c w 0 0)) ∧
  (∀ (f : Fields) (e : Opnds), e.a < 2 ^ 32 → e.b < 2 ^ 32 →
    let A := negBit e.a (f.fn.getLsbD 2)
    let B := negBit e.b (f.fn.getLsbD 1)
    let rm := RM.of f.top2
    let a := fp32.rat A
    (fp32.finite A = true → fp32.finite B = true → B % 2 ^ 31 ≠ 0 → GivesRounded rm (a / fp32.rat B) (outFdiv f e)) ∧
    (fp32.finite A = true → A % 2 ^ 31 ≠ 0 → GivesRounded rm (1 / a) (outFrcp f e)) ∧
    (A < 0x7F800000 → ∃ c, outFsqrt f e = { val := some c, flags := 0 } ∧ fp32.finite c = true ∧ 0 ≤ fp32.rat c ∧
      (rm = .rn → ∀ y, fp32.finite y = true → 0 ≤ fp32.rat y →
        let middle := (fp32.rat c + fp32.rat y) / 2
        (fp32.rat c < fp32.rat y → a ≤ middle ^ 2) ∧ (fp32.rat y < fp32.rat c → middle ^ 2 ≤ a)) ∧
      (rm = .rz ∨ rm = .rd → fp32.rat c ^ 2 ≤ a ∧ ∀ y, fp32.finite y = true → fp32.rat c < fp32.rat y → a < fp32.rat y ^ 2) ∧
      (rm = .ru → a ≤ fp32.rat c ^ 2 ∧ ∀ y, fp32.finite y = true → 0 ≤ fp32.rat y → fp32.rat y < fp32.rat c → fp32.rat y ^ 2 < a)))

/-- R180. HADD2, HSUB2, HMUL2 and HFMA2 of finite elements round each of two elements once in the format of DT, and HDOT2 rounds a
sum of two products and C once to FP32.
R180. HMIN2, HMAX2 and HCMP2 act on each element as FMIN, FMAX and FCMP do, HABS2 clears both signs, and HCLASS2 gives the class
of each element.
R181. The packed integer forms: IADD2 wraps each element, IMIN2 and IMAX2 compare them by the signedness of ST, IPK16 clamps two
words to 16 bits with OVF for a clamped one, and IDOT4 adds four products of bytes to C modulo 2^32. -/
def Obligations.PackedHalvesAndIntegers : Prop :=
  (∀ (f : Fields) (e : Opnds), e.a < 2 ^ 32 → e.b < 2 ^ 32 → e.c < 2 ^ 32 → f.dt = 1 ∨ f.dt = 2 →
    let h := fmtOf f.dt
    let rm := RM.of f.top2
    let elt (x j : Nat) : Nat := x / 65536 ^ j % 65536
    let v (x j : Nat) : Rat := h.rat (elt x j)
    let rounds (o : RegOut) (g : Rat → Rat → Rat → Rat) : Prop := ∃ c, o.val = some c ∧ c < 2 ^ 32 ∧
      ∀ j, j < 2 → h.finite (elt e.a j) = true → h.finite (elt e.b j) = true → h.finite (elt e.c j) = true →
        Rounds h rm (g (v e.a j) (v e.b j) (v e.c j)) (elt c j)
    rounds (outHadd2 f e) (fun a b _ => a + b) ∧
    rounds (outHsub2 f e) (fun a b _ => a - b) ∧
    rounds (outHmul2 f e) (fun a b _ => a * b) ∧
    rounds (outHfma2 f e) (fun a b c => a * b + c) ∧
    ((∀ j, j < 2 → h.finite (elt e.a j) = true ∧ h.finite (elt e.b j) = true) → fp32.finite e.c = true →
      ∃ c, (outHdot2 f e).val = some c ∧
        Rounds fp32 rm (v e.a 0 * v e.b 0 + v e.a 1 * v e.b 1 + fp32.rat e.c) c)) ∧
  (∀ (f : Fields) (s : State) (tk : Nat) (t : Thread) (b : Block),
    let h := fmtOf f.dt
    let A (op : Op) (i : Nat) : Nat := opndA op t b f / 65536 ^ i % 65536
    let B (op : Op) (i : Nat) : Nat := opndB op t b f / 65536 ^ i % 65536
    let codes (i : Instr) (op : Op) (w : FlagWord) (g : Nat → Nat) : Prop :=
      GivesRegs i op f s tk t b w 1 (fun c => c < 2 ^ 32 ∧ ∀ j, j < 2 → c / 65536 ^ j % 65536 = g j)
    let inv (op : Op) : FlagWord := h.invOf [A op 0, B op 0, A op 1, B op 1]
    let both (op : Op) : FlagWord :=
      if (h.nan (A op 0) && h.nan (B op 0)) || (h.nan (A op 1) && h.nan (B op 1)) then fNAN else 0
    codes (.hmin2 f) .hmin2 (both .hmin2 ||| inv .hmin2) (fun j => h.extreme false (A .hmin2 j) (B .hmin2 j)) ∧
    codes (.hmax2 f) .hmax2 (both .hmax2 ||| inv .hmax2) (fun j => h.extreme true (A .hmax2 j) (B .hmax2 j)) ∧
    codes (.hcmp2 f) .hcmp2 (inv .hcmp2)
      (fun j => if h.compares (f.x.toNat % 8) (A .hcmp2 j) (B .hcmp2 j) then 0xFFFF else 0) ∧
    codes (.habs2 f) .habs2 0 (fun j => A .habs2 j % 2 ^ 15) ∧
    codes (.hclass2 f) .hclass2 0 (fun j => 2 ^ h.classOf (A .hclass2 j))) ∧
  (∀ (f : Fields) (s : State) (tk : Nat) (t : Thread) (b : Block),
    let sg : Bool := f.st % 2 == 1
    let int (n x : Nat) : Int := if sg then (BitVec.ofNat n x).toInt else ((BitVec.ofNat n x).toNat : Int)
    let elt (x i : Nat) : Int := int 16 (x / 65536 ^ i % 65536)
    let byte (x j : Nat) : Int := int 8 (x / 256 ^ j % 256)
    let each (i : Instr) (op : Op) (g : Int → Int → Int) : Prop :=
      GivesRegs i op f s tk t b 0 1 (fun c => ∀ j, j < 2 →
        BitVec.ofNat 16 (c / 65536 ^ j) = BitVec.ofInt 16 (g (elt (opndA op t b f) j) (elt (opndB op t b f) j)))
    let lo : Int := if sg then -(2 ^ 15) else 0
    let hi : Int := if sg then 2 ^ 15 - 1 else 2 ^ 16 - 1
    let x (j : Nat) : Int := int 32 (if j = 0 then opndA .ipk16 t b f else opndB .ipk16 t b f)
    let out (j : Nat) : Bool := decide (x j < lo) || decide (hi < x j)
    let a := opndA .idot4 t b f
    let d := opndB .idot4 t b f
    each (.iadd2 f) .iadd2 (· + ·) ∧
    each (.imin2 f) .imin2 min ∧
    each (.imax2 f) .imax2 max ∧
    GivesRegs (.ipk16 f) .ipk16 f s tk t b (if out 0 || out 1 then fOVF else 0) 1 (fun c => ∀ j, j < 2 →
      BitVec.ofNat 16 (c / 65536 ^ j) = BitVec.ofInt 16 (min (max (x j) lo) hi)) ∧
    GivesRegs (.idot4 f) .idot4 f s tk t b 0 1 (fun c =>
      BitVec.ofNat 32 c = BitVec.ofInt 32
        (byte a 0 * byte d 0 + byte a 1 * byte d 1 + byte a 2 * byte d 2 + byte a 3 * byte d 3 + opndC .idot4 t b f)))

/-- R182 to R185. Within the range of the destination every conversion is the correct rounding of its exact source: CVTF, CVTIF,
CVTF8, CVT8F, PK8 (one half of the destination, the other kept), PK16, CVTSF8 (the quotient by the scale) and CVTFI (an integer);
UNPK8 and UNPK16 are exact. -/
def Obligations.ConversionsRoundOnce : Prop :=
  ∀ (f : Fields) (e : Opnds), e.a < 2 ^ 64 → e.b < 2 ^ 32 → e.old < 2 ^ 32 → fmtBad f.x = false →
    let rm := RM.of f.top2
    let src := fmtOf f.st
    let dst := fmtOf f.dt
    let F := f.x.toNat % 32
    let A := if f.st = 0 then e.a % 2 ^ 32 else e.a % 65536
    let B := if f.st = 0 then e.b else e.b % 65536
    let int (n x : Nat) : Int := if f.st % 2 = 1 then (BitVec.ofNat n x).toInt else ((BitVec.ofNat n x).toNat : Int)
    let byte (x j : Nat) : Nat := x / 256 ^ j % 256
    let elt (x j : Nat) : Nat := x / 65536 ^ j % 65536
    let iw : Nat := if f.dt ≥ 2 then 64 else 32
    let lo : Int := if f.dt % 2 = 1 then -(2 ^ (iw - 1)) else 0
    let hi : Int := if f.dt % 2 = 1 then 2 ^ (iw - 1) - 1 else 2 ^ iw - 1
    let gives (o : RegOut) (P : Nat → Prop) : Prop := ∃ c, o.val = some c ∧ P c
    gives (outCvtif f e) (fun c => Rounds dst rm (int (if f.st ≥ 2 then 64 else 32) e.a) c) ∧
    (e.a < 2 ^ 32 →
      (src.finite A = true →
        gives (outCvtf f e) (fun c => Rounds dst rm (src.rat A) c) ∧
        gives (outCvtfi f e) (fun c =>
          ∃ v, RoundsInt rm (src.rat A) v ∧ (lo ≤ v → v ≤ hi → BitVec.ofNat iw c = BitVec.ofInt iw v)) ∧
        gives (outCvtf8 f e) (fun c => b8Rounds F rm (src.rat A) c)) ∧
      gives (outCvt8f f e) (fun c =>
        let y := byte e.a (f.x.toNat / 32 % 4)
        b8Finite F y = true → Rounds dst rm (b8Rat F y) c) ∧
      gives (outPk8 f e) (fun c =>
        let h := if f.x.getLsbD 5 then 2 else 0
        let k := if f.x.getLsbD 5 then 0 else 1
        (src.finite A = true → b8Rounds F rm (src.rat A) (byte c h)) ∧
        (src.finite B = true → b8Rounds F rm (src.rat B) (byte c (h + 1))) ∧ elt c k = elt e.old k) ∧
      gives (outUnpk8 f e) (fun c => ∀ j, j < 2 →
        let y := byte e.a ((if f.x.getLsbD 5 then 2 else 0) + j)
        b8Finite F y = true → fp32.rat (c / 2 ^ (32 * j) % 2 ^ 32) = b8Rat F y) ∧
      (f.dt = 1 ∨ f.dt = 2 → gives (outPk16 f e) (fun c => ∀ j, j < 2 →
        let y := if j = 0 then e.a else e.b
        fp32.finite y = true → Rounds dst rm (fp32.rat y) (elt c j))) ∧
      gives (outUnpk16 f e) (fun c => ∀ j, j < 2 →
        src.finite (elt e.a j) = true → fp32.rat (c / 2 ^ (32 * j) % 2 ^ 32) = src.rat (elt e.a j)) ∧
      gives (outCvtsf8 f e) (fun c =>
        let k := e.b % 256
        fp32.finite e.a = true → b8Finite b8Scale k = true → b8Rat b8Scale k ≠ 0 →
          b8Rounds F .rn (fp32.rat e.a / b8Rat b8Scale k) c))

/-! ### Class 011 (chapters 2, 9 and 21) -/

/-- R188 to R190, R360. Unconditional jumps: BRA under p0 goes to PC + 12 + IMM and under (!p0) to PC + 12; JMPI goes to a 64-bit target;
CALL and CALLI push PC + 12 while the hardware has room for an entry, whose word in memory becomes unspecified, and RET pops: an address with
bits [63:56] set is kept whole for the check of the fetch there. A call at depth 1024 and a return at depth 0 take cause 0x11. Nothing
else of the thread changes. Calls and returns that spill or refill an entry are left aside.
R187, R189. A guarded JMPI, CALL, CALLI or RET makes its effect and stops being ready until its guard resolves, then goes on at its
target; where its guard is false it does so at PC + 12, with its return stack unchanged. One resolution serves the stitch: a member
joins the one that an earlier member of the issue opened. That the effect is made at the issue, and the thread goes on at the resolution,
is log 19. -/
def Obligations.JumpsCallsAndTheirGuards : Prop :=
  (∀ (f : Fields) (s : State) (tk : Nat) (t : Thread) (b : Block),
    let rel : BitVec 56 := t.pc + 12 + f.imm.signExtend 56
    let target (op : Op) : Nat := opndA op t b f
    let good (op : Op) : Prop := target op < 2 ^ 56 ∧ target op % 4 = 0
    let pushed : Thread := { t with
      depth := t.depth + 1, ret := Sparse.set t.ret (t.depth + 1) ((t.pc + 12).setWidth 64), walkFail := none }
    let goes (i : Instr) (u : Thread) (pc : BitVec 56) : Prop := Leaves i s (s.setThread tk (u.retireTo pc))
    let calls (i : Instr) (pc : BitVec 56) : Prop := ∃ s', exec i s = .next s' ∧
      s'.thread? tk = some (pushed.retireTo pc) ∧ (∀ k, k ≠ tk → s'.thread? k = s.thread? k) ∧
      s' = { s with threads := s'.threads, mem := s'.mem, lines := s'.lines, fresh := s'.fresh } ∧
      OnlySpill s s' (tkCore tk) b.asid (spillAddr b (tkThr tk) (t.depth + 1))
    let broken (i : Instr) (k sub : Nat) : Prop :=
      Leaves i s (s.takeTrap tk ⟨0x11, spillAddr b (tkThr tk) k, sub⟩ s.cur.id false)
    (f.gp = 0 → f.gn = false → Executes .bra f s tk t b → goes (.bra f) t rel) ∧
    (f.gp = 0 → f.gn = true → Alone s tk t b → goes (.bra f) t (t.pc + 12)) ∧
    (f.gp = 0 → Executes .jmpi f s tk t b → good .jmpi → goes (.jmpi f) t (BitVec.ofNat 56 (target .jmpi))) ∧
    (f.gp = 0 → Executes .call f s tk t b → t.depth < 8 → calls (.call f) rel) ∧
    (f.gp = 0 → Executes .calli f s tk t b → good .calli → t.depth < 8 →
      calls (.calli f) (BitVec.ofNat 56 (target .calli))) ∧
    (f.gp = 0 → Executes .ret f s tk t b → 0 < t.depth → t.depth < 9 → t.refill = none →
      goes (.ret f) { t with
        depth := t.depth - 1, ret := Sparse.erase t.ret t.depth, walkFail := none
        pcTop := (Sparse.getD t.ret t.depth 0).toNat / 2 ^ 56 } ((Sparse.getD t.ret t.depth 0).setWidth 56)) ∧
    (Executes .call f s tk t b → t.depth ≥ 1024 → broken (.call f) 1025 0) ∧
    (Executes .calli f s tk t b → good .calli → t.depth ≥ 1024 → broken (.calli f) 1025 0) ∧
    (Executes .ret f s tk t b → t.depth = 0 → broken (.ret f) 0 1)) ∧
  (∀ (f : Fields) (s : State) (tk : Nat) (t : Thread) (b : Block), f.gp ≠ 0 →
    let pushed : Thread := { t with
      depth := t.depth + 1, ret := Sparse.set t.ret (t.depth + 1) ((t.pc + 12).setWidth 64), walkFail := none }
    let waits (i : Instr) (u : Thread) (pc : BitVec 56) : Prop :=
      let stands (n : Nat) : Thread := { u with wait := .branch n, waitSince := if t.wait = .branch n then t.waitSince else s.clk }
      ∃ s', exec i s = .next s' ∧ OnlySpill s s' (tkCore tk) b.asid (spillAddr b (tkThr tk) u.depth) ∧
        (u.depth ≤ t.depth → SameBytes s s') ∧ (∀ k, k ≠ tk → s'.thread? k = s.thread? k) ∧
        match s.branches.find? (fun y => y.issue == s.cur.id && y.mask == 0 && y.pc == t.pc) with
        | some br => s'.thread? tk = some (stands br.id) ∧
          s'.branches = s.branches.map (fun y => if y.id = br.id then { y with members := y.members ++ [(tk, pc, true)] } else y)
        | none => s'.thread? tk = some (stands s.nextId) ∧ ∃ br, s'.branches = s.branches ++ [br] ∧ br.id = s.nextId ∧
          br.issue = s.cur.id ∧ br.pc = t.pc ∧ br.mask = 0 ∧ br.pred = none ∧ br.members = [(tk, pc, true)]
    (Executes .jmpi f s tk t b → opndA .jmpi t b f < 2 ^ 56 → opndA .jmpi t b f % 4 = 0 →
      waits (.jmpi f) t (BitVec.ofNat 56 (opndA .jmpi t b f))) ∧
    (Executes .call f s tk t b → t.depth < 8 → waits (.call f) pushed (t.pc + 12 + f.imm.signExtend 56)) ∧
    (Executes .calli f s tk t b → opndA .calli t b f < 2 ^ 56 → opndA .calli t b f % 4 = 0 → t.depth < 8 →
      waits (.calli f) pushed (BitVec.ofNat 56 (opndA .calli t b f))) ∧
    (Executes .ret f s tk t b → 0 < t.depth → t.depth < 9 → t.refill = none →
      waits (.ret f) { t with
        depth := t.depth - 1, ret := Sparse.erase t.ret t.depth, walkFail := none
        pcTop := (Sparse.getD t.ret t.depth 0).toNat / 2 ^ 56 } ((Sparse.getD t.ret t.depth 0).setWidth 56)) ∧
    (Alone s tk t b → guardOf t f = false →
      waits (.jmpi f) t (t.pc + 12) ∧ waits (.call f) t (t.pc + 12) ∧ waits (.calli f) t (t.pc + 12) ∧ waits (.ret f) t (t.pc + 12)))

/-- R33, R34, R188. A BRA under another guard than p0 records the branch with the actual next PC of the thread and the prediction
of Table 2.3: without one the thread stops being ready until the branch resolves; with one it goes on along the predicted path, and
the state before the path is kept.
R34, R35, R344. A branch that resolves: without a prediction its members go to their actual targets one cycle of their core later; a
member whose path was predicted right keeps its results, and the flags it held back are set in their cycle, at once if that is past; one
whose path was wrong is as it was before the path, at its actual next PC, and the loads of the path are no accesses (where a report came
meanwhile and an older collective is open, see WakesReportsAndProbes). The predictor entry learns the outcome. -/
def Obligations.BranchesAndTheirResolution : Prop :=
  (∀ (f : Fields) (s : State) (tk : Nat) (t : Thread) (b : Block), f.gp ≠ 0 → Alone s tk t b → s.cur.pc = t.pc →
    (guardOf t f = true → rejection .bra Op.bra.code.toNat t b f = none) →
    let target : BitVec 56 := t.pc + 12 + f.imm.signExtend 56
    let taken := guardOf t f
    let lane := laneBit tk
    let e := Sparse.getD (s.slice s.cur.core s.cur.slice).predictor (t.pc.toNat / 4 % 2048) ⟨0, 0⟩
    let predicted : Option (BitVec 32) :=
      match f.bh with
      | .pred => if e.conf ≥ 2 then some (e.last &&& lane) else none
      | .unif => some (e.last &&& lane)
      | _ => none
    ∃ s' br, Leaves (.bra f) s s' ∧ s'.branches = s.branches ++ [br] ∧ br.id = s.nextId ∧ br.issue = s.cur.id ∧
      br.core = s.cur.core ∧ br.slice = s.cur.slice ∧ br.pc = t.pc ∧ br.mask = lane ∧ br.taken = (if taken then lane else 0) ∧ br.pred = predicted ∧
      br.last = e.last &&& lane ∧ br.members = [(tk, if taken then target else t.pc + 12, taken)] ∧
      (predicted = none → s'.thread? tk = some { t with wait := .branch s.nextId, waitSince := if t.wait = .branch s.nextId then t.waitSince else s.clk } ∧ s'.ckpts = s.ckpts) ∧
      (∀ p, predicted = some p →
        let u := t.retireTo (if p = 0 then t.pc + 12 else target)
        s'.thread? tk = some { u with spec := some ⟨s.nextId, 0, p != 0, [], none⟩ } ∧ Sparse.get? s'.ckpts tk = some u) ∧
      ∀ k, k ≠ tk → s'.thread? k = s.thread? k) ∧
  (∀ (s : State) (id : Nat) (br : Branch), s.branches.find? (fun b => b.id = id) = some br →
    let hit : Bool := match br.pred with | some p => p == br.taken | none => br.last == br.taken
    let learns (s' : State) : Prop := ∀ e, e = Sparse.getD (s.slice br.core br.slice).predictor (br.pc.toNat / 4 % 2048) ⟨0, 0⟩ →
      Sparse.getD (s'.slice br.core br.slice).predictor (br.pc.toNat / 4 % 2048) ⟨0, 0⟩ =
        { last := (e.last &&& ~~~br.mask) ||| (br.taken &&& br.mask), conf := if hit then min (e.conf + 1) 3 else e.conf - 1 }
    (br.pred = none → br.mask ≠ 0 → ∃ s', Leaves (.branchResolution id) s s' ∧ learns s' ∧ s'.threads = s.threads ∧
      s'.branches.find? (fun b => b.id = id) = some { br with mask := 0, due := s.now br.core + 1 }) ∧
    (∀ tk t pc x, br.pred = none → br.mask = 0 → br.members = [(tk, pc, x)] → s.thread? tk = some t → t.spec = none →
      t.wait = .branch id → ∃ s', Leaves (.branchResolution id) s s' ∧ s'.thread? tk = some (t.retireTo pc) ∧
        s'.branches.find? (fun b => b.id = id) = none) ∧
    (∀ tk t b pc x p m, br.pred = some m → br.members = [(tk, pc, x)] → s.thread? tk = some t → s.block? (tkBk tk) = some b →
      t.spec = some p → p.branch = id → p.taken = x → p.trap = none →
      let past (y : Nat × FlagHome × FlagWord) : Bool := decide (y.1 ≤ s.now (tkCore tk))
      ∃ s' b', Leaves (.branchResolution id) s s' ∧ learns s' ∧ s'.branches.find? (fun b => b.id = id) = none ∧
        s'.thread? tk = some { t with
          spec := none, flagsDue := (t.flagsDue ++ p.flags).map (fun y => if past y then (s.now (tkCore tk), y.2.1, 0) else y)
          wait := if t.wait = .specEnd then .none else if t.wait = .specPort then .access else t.wait } ∧
        Sparse.get? s'.ckpts tk = none ∧ s'.block? (tkBk tk) = some b' ∧
        b'.flags = (((t.flagsDue ++ p.flags).filter past).foldl (fun c y => c.land y.2.1 y.2.2) b).flags) ∧
    (∀ tk t c pc x p m, br.pred = some m → br.members = [(tk, pc, x)] → s.thread? tk = some t →
      Sparse.get? s.ckpts tk = some c → t.spec = some p → p.branch = id → p.taken ≠ x →
      (t.reports = [] ∨ ({ t with pends := c.pends }).collWait = none) →
      ∃ s', Leaves (.branchResolution id) s s' ∧ learns s' ∧ s'.branches.find? (fun b => b.id = id) = none ∧
        s'.thread? tk = some { t with
          pc := pc, v := c.v, p := c.p, h := c.h, marks := c.marks, pends := c.pends, readyAt := c.readyAt, predAt := c.predAt
          bankAt := c.bankAt, hb := c.hb, seen := c.seen, ordered := c.ordered, sleepAt := c.sleepAt, spec := none
          walkFail := none, pcTop := 0, wait := .replay (s.now (tkCore tk) + 1), waitSince := s.clk, replayed := true } ∧
        (∀ r, r ∈ s'.reqs ↔ r ∈ s.reqs ∧
          ¬(r.tk = tk ∧ r.act.writes = false ∧ ∃ q, r.pend = some q ∧ ∀ w ∈ c.pends, w.id ≠ q)) ∧
        Sparse.get? s'.ckpts tk = none ∧ s'.blocks = s.blocks))

/-- R191, R192, R202. EXIT ends the thread: it leaves its trap skein and every skein with its arrivals, its windows close, its loads in
flight are discarded, its stores stay, and the flags of its results that are known but not yet written are still set in their cycle (log 14). YIELD and SLEEP only go to PC + 12 and stop being ready, SLEEP 0 acts as NOP, and STWAIT
waits while more than IMM stores are unacknowledged. -/
def Obligations.EndingAndWaiting : Prop :=
  ∀ (f : Fields) (s : State) (tk : Nat) (t : Thread) (b : Block),
    let next := t.retireTo (t.pc + 12)
    (Executes .exit f s tk t b → ∃ s' c, Leaves (.exit f) s s' ∧
      s'.thread? tk = some { t with
        exited := true, wait := .none, pends := []
        flagsDue := t.flagsDue ++ (t.pends.filter (fun p => p.ready && p.flags != 0)).map (fun p => (p.due, p.home, p.flags)), reports := [], trapNext := [], skeins := 0, trapSkein := none, marks := [] } ∧
      s'.block? (tkBk tk) = some c ∧ (∀ z ∈ c.trapSkeins, t.trapSkein = some z.num → tkThr tk ∉ z.members) ∧
      (∀ k a, k < 16 → t.skeins.getLsbD k = true → a ∈ (c.phaseOf (.skein k)).arrived ++ (c.phaseOf (.skein k)).late → a.t ≠ tkThr tk) ∧
      s'.reqs = (s.reqs.filter (fun r => !(r.tk == tk && match r.act with | .load _ | .refill _ => true | _ => r.stage == .done && !r.counted))).map
        (fun r => if r.tk = tk then { r with pend := none } else r)) ∧
    (Executes .yield f s tk t b → Leaves (.yield f) s (s.setThread tk { next with
      wait := .yielded (Sparse.getD (s.slice (tkCore tk) (sliceOfThr (tkThr tk))).counters 0 0), waitSince := s.clk })) ∧
    (Executes .sleep f s tk t b → f.imm = 0 → Leaves (.sleep f) s (s.setThread tk next)) ∧
    (Executes .sleep f s tk t b → f.imm ≠ 0 →
      Leaves (.sleep f) s (s.setThread tk { next with sleepAt := s.clk + f.imm.toNat, wait := .sleep, waitSince := s.clk })) ∧
    (Executes .stwait f s tk t b → t.pst ≤ f.imm.toNat → Leaves (.stwait f) s (s.setThread tk next)) ∧
    (Executes .stwait f s tk t b → f.imm.toNat < t.pst →
      Leaves (.stwait f) s (s.setThread tk { t with
        wait := .stwait f.imm.toNat, waitSince := if t.wait = .stwait f.imm.toNat then t.waitSince else s.clk }))

/-- R37, R38, R193. SKJOIN adds the thread to skein SK and SKLEAVE removes it; joining twice, or leaving a skein one is not in, changes
nothing but the PC. A thread that joins a pending phase in the cycle in which it began is expected in it, a later one is not; a thread
that leaves is expected no more, and its arrival is gone. That a skein without members and arrivals has its new phase begin with the
member that joins is log 24. In trap mode both take cause 0x09 with SUB 2.
R168, R197. FLAGS writes F[SK] OR (ARM[SK] << 4) to v[D]: .rd changes nothing, .clr clears the flags of its mask but those raised
in this cycle, and .arm sets the armed mask. Nothing else of the block changes. The flags of an instruction are set in the cycle in which
its result is written: those of a thread whose cycle has come are joined to the words of their skeins. That flags raised in a cycle survive
its .clr is log 13, when they are set log 14. -/
def Obligations.SkeinsAndStickyFlags : Prop :=
  (∀ (f : Fields) (s : State) (tk : Nat) (t : Thread) (b : Block),
    let k := f.low4
    let thr := tkThr tk
    let next := t.retireTo (t.pc + 12)
    let p := b.phaseOf (.skein k)
    let refused (i : Instr) : Prop := Leaves i s (s.takeTrap tk ⟨0x09, k * 2 ^ 56, 2⟩ s.cur.id false)
    (Executes .skjoin f s tk t b → t.mode = .trap → refused (.skjoin f)) ∧
    (Executes .skleave f s tk t b → t.mode = .trap → refused (.skleave f)) ∧
    (Executes .skjoin f s tk t b → t.mode = .user → t.skeins.getLsbD k = true → Leaves (.skjoin f) s (s.setThread tk next)) ∧
    (Executes .skleave f s tk t b → t.mode = .user → t.skeins.getLsbD k = false → Leaves (.skleave f) s (s.setThread tk next)) ∧
    (Executes .skjoin f s tk t b → t.mode = .user → t.skeins.getLsbD k = false → ∃ s' c, Leaves (.skjoin f) s s' ∧
      s'.thread? tk = some { next with skeins := t.skeins ||| (1#16 <<< k) } ∧ s'.block? (tkBk tk) = some c ∧
      (p.waiting ≠ [] → p.began = s.clk → c.phaseOf (.skein k) = { p with waiting := p.waiting ++ [thr] }) ∧
      (p.waiting ≠ [] → p.began ≠ s.clk → c.phaseOf (.skein k) = p) ∧
      (p.waiting = [] → p.arrived = [] →
        (c.phaseOf (.skein k)).waiting = [thr] ∧ (c.phaseOf (.skein k)).arrived = [] ∧ (c.phaseOf (.skein k)).began = s.clk) ∧
      ∀ q, q ≠ tk → s'.thread? q = s.thread? q) ∧
    (Executes .skleave f s tk t b → t.mode = .user → t.skeins.getLsbD k = true → ∃ s' c, Leaves (.skleave f) s s' ∧
      s'.thread? tk = some { next with skeins := t.skeins &&& ~~~(1#16 <<< k) } ∧ s'.block? (tkBk tk) = some c ∧
      ((∃ j ∈ p.waiting, j ≠ thr) → c.phaseOf (.skein k) =
        { p with
          waiting := p.waiting.filter (· != thr), arrived := p.arrived.filter (fun a => a.t != thr)
          late := p.late.filter (fun a => a.t != thr) }))) ∧
  (∀ (f : Fields) (s : State) (tk : Nat) (t : Thread) (b : Block),
    (∀ p : Nat → Bool, s.thread? tk = some t → s.block? (tkBk tk) = some b →
      ∃ c, (s.setFlags tk p).thread? tk = some { t with
        flagsDue := t.flagsDue.map (fun y => if p y.1 then (s.now (tkCore tk), y.2.1, 0) else y) } ∧
        (s.setFlags tk p).block? (tkBk tk) = some c ∧ ∀ j, Sparse.getD c.flags j 0 =
          (t.flagsDue.filter (fun y => p y.1 && decide (y.2.1 = .skein j))).foldl (fun w y => w ||| y.2.2)
            (Sparse.getD b.flags j 0)) ∧
    (Executes .flags f s tk t b →
    let k := f.low4
    let m : FlagWord := (BitVec.ofNat 32 (opndA .flags t b f)).extractLsb' 0 4
    let F := Sparse.getD b.flags k 0
    let A := Sparse.getD b.arms k 0
    let now : FlagWord := match Sparse.get? b.raised k with | some (c, x) => if c = s.clk then x else 0 | none => 0
    ∃ s' u c, Leaves (.flags f) s s' ∧ s'.thread? tk = some u ∧ WentOn t u (t.pc + 12) ∧
      WroteRegs t u f.d.toNat 1 (F.toNat + 16 * A.toNat) ∧ s'.block? (tkBk tk) = some c ∧
      c = { b with flags := c.flags, arms := c.arms } ∧ (∀ j, j ≠ k → Sparse.getD c.flags j 0 = Sparse.getD b.flags j 0 ∧
        Sparse.getD c.arms j 0 = Sparse.getD b.arms j 0) ∧
      (f.x.toNat % 4 = 1 → Sparse.getD c.flags k 0 = (F &&& ~~~m) ||| now ∧ c.arms = b.arms) ∧
      (f.x.toNat % 4 = 2 → Sparse.getD c.arms k 0 = m ∧ c.flags = b.flags) ∧
      (f.x.toNat % 4 = 0 → c = b) ∧
      (∀ q, q ≠ tk → s'.thread? q = s.thread? q) ∧ ∀ q, q ≠ tkBk tk → s'.block? q = s.block? q))

/-- R38, R168, R194, R195, R357. BAR and the collectives wait until the thread's earlier instructions have set their flags (log 14), then arrive in the pending phase of skein SK (of the thread's trap skein in trap mode) with
the sources they read: while another thread is still expected, BAR waits, and a collective goes on with its window open. A thread that
is no member takes cause 0x09 (that a member which arrives again before the phase is over arrives in the next one is log 64), one whose instruction or address is not that of the first arrival cause 0x08.
R38, R107, R194, R195, R358, R359. When the last expected thread arrives the phase completes: the members that completed it are released in
ascending %thr, BAR past its instruction and a collective with its result in its window (more than 64 of them close without one, with
cause 0x09 SUB 1), armed flags that are set trap each of them before its next instruction, every access in flight that precedes
a member's arrival happens-before what each of them does next, and the next phase expects every member. A member on a speculative
path is released in the state kept from before the path as well. A member whose own trap waits for its windows takes that trap where its
last window closes without a result. -/
def Obligations.BarriersAndPhases : Prop :=
  (∀ (f : Fields) (s : State) (tk : Nat) (t : Thread) (b : Block),
    let h := barHome t f
    let thr := tkThr tk
    let p := b.phaseOf h
    let ops : List (Op × Instr) :=
      [(.bar, .bar f), (.vote, .vote f), (.ballot, .ballot f), (.shfl, .shfl f), (.skred, .skred f), (.skmatch, .skmatch f)]
    ∀ op i, (op, i) ∈ ops → Executes op f s tk t b →
      let accs := s.flying ((s.reqs.filter (fun r => r.tk = tk)).map (·.id) ++ t.hb)
      let me : Arrival := ⟨thr, op, t.pc, opndA op t b f, opndB op t b f, f.x.toNat, s.nextId, accs⟩
      let came (p1 : Phase) : Prop := ∃ s' u, Leaves i s s' ∧ s'.thread? tk = some u ∧ s'.block? (tkBk tk) = some (b.setPhase h p1) ∧
        (∀ q, q ≠ tk → s'.thread? q = s.thread? q) ∧
        if op = .bar then u = { t with wait := u.wait, waitSince := u.waitSince } ∧ (∃ k, u.wait = .bar (t.mode == .trap) k)
        else ∃ w, u = { t.retireTo (t.pc + 12) with pends := (t.retireTo (t.pc + 12)).pends ++ [w] } ∧ w.id = s.nextId ∧ w.op = op ∧
          w.left = f.la.toNat ∧ w.regs = destRegs op b.limits f ∧ w.pred = predWritten op b.limits f ∧ w.ready = false
      let mate := p.waiting.any (· != thr)
      (t.mode = .trap → t.trapSkein.isSome = true) →
      (t.mode = .user → t.skeins.getLsbD f.low4 = false →
        Leaves i s (s.takeTrap tk ⟨0x09, f.low4 * 2 ^ 56, 0⟩ s.cur.id false)) ∧
      ((t.mode = .user → t.skeins.getLsbD f.low4 = true) → s.flagsSet tk t = false → Leaves i s (s.setThread tk { t with
        wait := .flags, waitSince := if t.wait = .flags then t.waitSince else s.clk })) ∧
      ((t.mode = .user → t.skeins.getLsbD f.low4 = true) → s.flagsSet tk t = true →
        (p.waiting.contains thr = true → mate = true → (p.fixed = none ∨ p.fixed = some (t.pc, op)) →
          came { p with
            waiting := p.waiting.filter (· != thr), arrived := p.arrived ++ [me], fixed := some (t.pc, op) }) ∧
        (p.waiting.contains thr = false → mate = true → (∀ l, p.late.head? = some l → l.pc = t.pc ∧ l.op = op) →
          came { p with late := p.late ++ [me] }) ∧
        (∀ pc op0, p.waiting.contains thr = true → p.fixed = some (pc, op0) → (pc, op0) ≠ (t.pc, op) →
          ∃ x, x.cause = 0x08 ∧ x.tval = bit1 (op0 != .bar) * 2 ^ 60 + homeNum h * 2 ^ 56 + pc.toNat ∧
            Leaves i s (s.takeTrap tk x s.cur.id false)))) ∧
  (∀ (f : Fields) (s : State) (tk : Nat) (t : Thread) (b : Block) (op : Op) (i : Instr),
    let k := f.low4
    let bk := tkBk tk
    let p := b.phaseOf (.skein k)
    let ops : List (Op × Instr) :=
      [(.bar, .bar f), (.vote, .vote f), (.ballot, .ballot f), (.shfl, .shfl f), (.skred, .skred f), (.skmatch, .skmatch f)]
    (op, i) ∈ ops → Executes op f s tk t b → t.mode = .user → t.skeins.getLsbD k = true → s.flagsSet tk t = true → p.waiting = [tkThr tk] → p.late = [] →
    (p.fixed = none ∨ p.fixed = some (t.pc, op)) → (∀ a ∈ p.arrived, a.op = op) →
    (p.arrived.map (·.t)).Nodup → tkThr tk ∉ p.arrived.map (·.t) → (∀ a ∈ p.arrived, (s.thread? (bk * 4096 + a.t)).isSome = true) → t.pendTrap = none →
    let accs := s.flying ((s.reqs.filter (fun r => r.tk = tk)).map (·.id) ++ t.hb)
    let me : Arrival := ⟨tkThr tk, op, t.pc, opndA op t b f, opndB op t b f, f.x.toNat, s.nextId, accs⟩
    let xs := sortBy (fun x y => decide (x.t ≤ y.t)) (p.arrived ++ [me])
    let arm := Sparse.getD b.arms k 0
    let fl := Sparse.getD b.flags k 0
    let big := xs.length > 64
    ∃ s' c, Leaves i s s' ∧ s'.block? bk = some c ∧
      (c.phaseOf (.skein k)).arrived = [] ∧ (c.phaseOf (.skein k)).waiting = s'.members bk (.skein k) ∧
      (c.phaseOf (.skein k)).began = s.clk ∧
      ∀ r x, xs[r]? = some x → ∃ t0 u, s'.thread? (bk * 4096 + x.t) = some u ∧
        (x ≠ me → s.thread? (bk * 4096 + x.t) = some t0) ∧ (x = me → op = .bar → t0 = t) ∧
        (∀ n g rt, t0.pendTrap = some (n, g, rt) → x ≠ me → op ≠ .bar → big → t0.mode = .user → (∀ q ∈ t0.pends, q.id = x.pend) →
          b.stopping = false → b.halted = false → s.handler b.asid ≠ 0 →
          u.mode = .trap ∧ u.pc = s.handler b.asid ∧ u.tcause = BitVec.ofNat 64 n.cause ∧
            u.tpc = ((if rt then t0.pc + 12 else t0.pc).setWidth 64)) ∧
        ((x ≠ me → t0.pendTrap = none) →
        (∀ y ∈ xs, ∀ i ∈ y.accs, (∃ q ∈ s.reqs, q.id = i) → i ∈ u.hb) ∧
        (∀ c0, Sparse.get? s.ckpts (bk * 4096 + x.t) = some c0 → ∃ c1, Sparse.get? s'.ckpts (bk * 4096 + x.t) = some c1 ∧
          (op ≠ .bar → ¬big → ∀ q ∈ c1.pends, q.id = x.pend → q.ready = true) ∧ (op ≠ .bar → big → ∀ q ∈ c1.pends, q.id ≠ x.pend)) ∧
        (op = .bar → u.pc = t0.pc + 12 ∧ u.v = t0.v ∧ u.p = t0.p ∧ ∃ n, u.wait = .release n) ∧
        (op ≠ .bar → ¬big → x ≠ me → u.pc = t0.pc ∧ ∀ q ∈ t0.pends, q.id = x.pend → ∃ w ∈ u.pends, w.id = x.pend ∧ w.ready = true ∧
          w.pval = (collResult xs r x).2.1 ∧ w.flags = (collResult xs r x).2.2 ∧ w.vals = destVals q.regs (collResult xs r x).1) ∧
        (op ≠ .bar → ¬big → x = me → u.pc = t.pc + 12 ∧ ∃ w ∈ u.pends, w.id = s.nextId ∧ w.ready = true ∧
          w.pval = (collResult xs r x).2.1 ∧ w.flags = (collResult xs r x).2.2 ∧
          w.vals = destVals (destRegs op b.limits f) (collResult xs r x).1) ∧
        (op ≠ .bar → big → ∀ q ∈ u.pends, q.id ≠ x.pend) ∧
        ∃ old, (x ≠ me → old = t0.trapNext) ∧ (x = me → old = t.trapNext) ∧
        u.trapNext = old ++ (if op ≠ .bar ∧ big then [⟨0x09, k * 2 ^ 56 + xs.length % 65536, 1⟩] else []) ++
          (if arm &&& fl ≠ 0 then [⟨0x0B, k * 256 + arm.toNat * 16 + fl.toNat, 0⟩] else [])))

/-- R196. The results of the collectives over the members' sources x[0] … x[n−1] in ascending rank: VOTE tests all, any or same; BALLOT and
SKMATCH give bit j for member j; SHFL takes the member that its mode names, or keeps its own; SKRED folds in ascending rank, .fadd with one rounding a member and the
flags of them all, .fmin and .fmax as FMIN and FMAX do. -/
def Obligations.CollectiveValues : Prop :=
  ∀ (xs : List Arrival) (r : Nat) (me : Arrival), xs[r]? = some me → xs.length ≤ 64 → (∀ x ∈ xs, x.a < 2 ^ 32 ∧ x.b < 2 ^ 32) →
    let v := collResult xs r me
    let src (j : Nat) : Nat := ((xs.map (·.a))[j]?).getD 0
    let n := xs.length
    let i : Int := match me.x % 4 with | 0 => me.b | 1 => (r : Int) - me.b | 2 => (r : Int) + me.b | _ => ((r ^^^ me.b : Nat) : Int)
    (me.op = .vote → (me.x % 4 = 0 → (v.2.1 = true ↔ ∀ j, j < n → src j ≠ 0)) ∧
      (me.x % 4 = 1 → (v.2.1 = true ↔ ∃ j, j < n ∧ src j ≠ 0)) ∧
      (me.x % 4 = 2 → (v.2.1 = true ↔ ∀ j k, j < n → k < n → (src j ≠ 0 ↔ src k ≠ 0)))) ∧
    (me.op = .ballot → ∀ j, v.1.testBit j = (decide (j < n) && decide (src j ≠ 0))) ∧
    (me.op = .skmatch → ∀ j, v.1.testBit j = (decide (j < n) && decide (src j = src r))) ∧
    (me.op = .shfl → (0 ≤ i → i < n → v.1 = src i.toNat) ∧ (i < 0 ∨ (n : Int) ≤ i → v.1 = src r)) ∧
    (me.op = .skred →
      let all := xs.map (·.a)
      let word (x : Nat) : Int := (BitVec.ofNat 32 x).toInt
      (me.x % 16 = 0 → v.1 = all.sum % 2 ^ 32) ∧
      (me.x % 16 = 1 → v.1 ∈ all ∧ ∀ x ∈ all, word v.1 ≤ word x) ∧
      (me.x % 16 = 2 → v.1 ∈ all ∧ ∀ x ∈ all, word x ≤ word v.1) ∧
      (me.x % 16 = 3 → v.1 ∈ all ∧ ∀ x ∈ all, v.1 ≤ x) ∧
      (me.x % 16 = 4 → v.1 ∈ all ∧ ∀ x ∈ all, x ≤ v.1) ∧
      (me.x % 16 = 5 → ∀ j, j < 32 → v.1.testBit j = all.all (fun x => x.testBit j)) ∧
      (me.x % 16 = 6 → ∀ j, v.1.testBit j = all.any (fun x => x.testBit j)) ∧
      (me.x % 16 = 7 → v.1 = all.foldl (· ^^^ ·) 0) ∧
      (∀ (f : Fields) (e : Opnds) x rest, f.fn = 0 → me.x % 16 = 9 → all = x :: rest →
        (v.1, v.2.2) = rest.foldl (fun acc y =>
          let o := outFadd f { e with a := acc.1, b := y }
          (o.val.getD 0, acc.2 ||| o.flags)) (x, 0)) ∧
      (∀ x rest, me.x % 16 = 10 ∨ me.x % 16 = 11 → all = x :: rest →
        (v.1, v.2.2) = rest.foldl (fun acc y =>
          (fp32.extreme (me.x % 16 == 11) acc.1 y,
            acc.2 ||| (if fp32.nan acc.1 && fp32.nan y then fNAN else 0) ||| fp32.invOf [acc.1, y])) (x, 0)))

/-- R198 to R200. The byte-barrier instructions on the object that their address names, once their checks are made and no marker or earlier access
holds them back: BINIT sets it up where no write of higher precedence has come in the cycle (those bytes stay, R97), BEXPECT adds to PENDING, BARRIVE counts an arrival (one too many sets ERR), both then complete it if they
can, BWAIT goes on when PHASE is X[0] (BWAIT.acq takes over the releases that the object carries, R109), and BTEST writes that comparison
to a predicate. Only the object's 16 bytes change, all of them for BINIT, which ends the releases that they carried; what the others read
is kept for a later FENCE (R99).
R384, R398, R399. A byte-barrier instruction whose count, alignment, bounds or rank fails takes cause 0x01, 0x03, 0x06 or 0x07 and
leaves every object as it was. -/
def Obligations.ByteBarriersAndTheirTraps : Prop :=
  (∀ (f : Fields) (s : State) (tk : Nat) (t : Thread) (b d : Block),
    let ea (op : Op) : Nat := (opndA op t b f + f.imm.toNat) % 2 ^ 32
    let copy (op : Op) := b.scrCopy (ea op)
    let c (op : Op) : Nat := (copy op).1
    let found (op : Op) (u : Thread) : Prop := u = { t.retireTo (t.pc + 12) with seen := u.seen } ∧
      ∀ x ∈ s.objReleases tk (copy op), ∀ i ∈ x.writes, (Scope.stk, x.tk, i) ∈ u.seen
    let o (op : Op) : Nat := d.spbase + (copy op).2.2
    let next := t.retireTo (t.pc + 12)
    let ready (op : Op) (w : Bool) : Prop := Executes op f s tk t b ∧ (∃ ps, b.scrPort (barrierAsk op w) (ea op) = .ok ps) ∧
      s.objectHeld tk t b (ea op) = false ∧ s.block? (bkOf (copy op).1 (copy op).2.1) = some d ∧
      (s.core (c op)).scratch.wf = true
    let old (op : Op) := s.objFields (c op) (o op)
    let makes (i : Instr) (op : Op) (x : ObjFields) (P : State → Thread → Prop) : Prop :=
      ∃ s' u, exec i s = .next s' ∧ s'.objFields (c op) (o op) = x ∧ OnlyScratch s s' (c op) (o op) 16 ∧ s'.thread? tk = some u ∧
        P s' u ∧ (∀ k, k ≠ tk → s'.thread? k = s.thread? k) ∧ s'.blocks = s.blocks
    let n := opndB .binit t b f
    let overruled (i : Nat) : Prop := ∃ w ∈ s.cycleWrites, precedence 3 (s.reqRank tk) < w.rank ∧ w.space = 1 + c .binit ∧
      w.at_ ≤ o .binit + i ∧ o .binit + i < w.at_ + w.n
    (ready .binit true → 0 < n → n < 65536 → ∃ s', exec (.binit f) s = .next s' ∧ OnlyScratch s s' (c .binit) (o .binit) 16 ∧
      s'.thread? tk = some next ∧ ∀ i, i < 16 →
        (overruled i → Memory.read (s'.core (c .binit)).scratch (o .binit + i) = Memory.read (s.core (c .binit)).scratch (o .binit + i)) ∧
        (¬overruled i → Memory.read (s'.core (c .binit)).scratch (o .binit + i) = BitVec.ofNat 8 (n * 2 ^ 48 / 256 ^ i))) ∧
    (ready .binit true → 0 < n → n < 65536 → (∀ i, i < 16 → ¬overruled i) → makes (.binit f) .binit ⟨0, false, n, 0, false⟩ (fun s' u => u = next ∧
      s'.obj (c .binit) (o .binit) = BitVec.ofNat 128 (n * 2 ^ 48) ∧
      ∀ i, i < 16 → Sparse.getD s'.releases (relKey (scrSpan (copy .binit)) i) [] = s.objectRels tk t false)) ∧
    (ready .bexpect true → makes (.bexpect f) .bexpect
      (let x := old .bexpect
       (if x.err then x else { x with pending := (x.pending + opndB .bexpect t b f) % 2 ^ 40 }).complete) (fun _ u => found .bexpect u)) ∧
    (ready .barrive true → (f.top3 = 3 → s.fenceOk tk t .stk = true) → makes (.barrive f) .barrive
      (let x := old .barrive
       (if x.arrived < x.expected then { x with arrived := x.arrived + 1 } else { x with err := true }).complete) (fun _ u => found .barrive u)) ∧
    (ready .bwait false → (old .bwait).phase = f.x.getLsbD 0 → ∃ u, Leaves (.bwait f) s (s.setThread tk u) ∧
      u = { next with hb := u.hb, seen := u.seen } ∧ (f.top3 ≠ 2 → u.hb = t.hb) ∧ (f.top3 = 2 → u.seen = t.seen) ∧
      (∀ i ∈ t.hb, i ∈ u.hb) ∧
      (f.top3 = 2 → ∀ x ∈ s.objReleases tk (copy .bwait), ∀ i ∈ x.writes, i ∈ u.hb)) ∧
    (ready .bwait false → (old .bwait).phase ≠ f.x.getLsbD 0 →
      ∃ w k, w = .bwait (c .bwait) (copy .bwait).2.1 (o .bwait) (f.x.getLsbD 0) (ea .bwait) ∧
        Leaves (.bwait f) s (s.setThread tk { t with wait := w, waitSince := k })) ∧
    (ready .btest false → ∃ s' u, Leaves (.btest f) s s' ∧ s'.thread? tk = some u ∧
      WentOn { t with seen := u.seen } u (t.pc + 12) ∧ WrotePred t u (f.d.toNat % 8) ((old .btest).phase == f.x.getLsbD 0) ∧
      (∀ x ∈ s.objReleases tk (copy .btest), ∀ i ∈ x.writes, (Scope.stk, x.tk, i) ∈ u.seen) ∧ ∀ k, k ≠ tk → s'.thread? k = s.thread? k)) ∧
  (∀ (f : Fields) (s : State) (tk : Nat) (t : Thread) (b : Block),
    let ops : List (Op × Instr × Bool) :=
      [(.bexpect, .bexpect f, true), (.barrive, .barrive f, true), (.bwait, .bwait f, false), (.btest, .btest f, false)]
    let traps (i : Instr) (x : TrapInfo) : Prop := Leaves i s (s.takeTrap tk x s.cur.id false)
    let n := opndB .binit t b f
    (Executes .binit f s tk t b → n = 0 ∨ 65536 ≤ n → traps (.binit f) ⟨0x01, n, 0x71 * 256 + 8 * 16 + 7⟩) ∧
    ∀ op i w, (op, i, w) ∈ ops → Executes op f s tk t b →
      let ea := (opndA op t b f + f.imm.toNat) % 2 ^ 32
      (ea % 16 ≠ 0 → ∃ x, x.cause = 0x03 ∧ x.tval = ea ∧ x.tinfo / 2 ^ 16 = 2 ∧ traps i x) ∧
      (ea % 16 = 0 → ea < 2 ^ 31 → b.spsize < ea + 16 →
        ∃ x, x.cause = 0x06 ∧ x.tval = max ea b.spsize ∧ x.tinfo / 2 ^ 16 = 0 ∧ traps i x) ∧
      (ea % 16 = 0 → 2 ^ 31 ≤ ea → b.desc.quilt ≤ ea / 2 ^ 28 % 8 →
        ∃ x, x.cause = 0x07 ∧ x.tval = ea ∧ x.tinfo / 2 ^ 16 = 0 ∧ traps i x))

/-- R43, R110, R201, R423. SEAMSET declares a count and clears SIG, SEAMSIGN adds a signature once the thread's scratchpad writes are
made, SEAMWAIT goes on when PHASE is X[0], SEAMTEST writes that comparison to a predicate. A count above 4,095, a SIG that would overflow
and a SEAMSET of a seam that an MMA names take cause 0x0A with SUB 0, 1 and 2. -/
def Obligations.Seams : Prop :=
  ∀ (f : Fields) (s : State) (tk : Nat) (t : Thread) (b : Block),
    let n := f.a.idx.toNat % 16
    let x := Sparse.getD b.seams n ⟨0, 0, false⟩
    let v := opndB .seamset t b f
    let next := t.retireTo (t.pc + 12)
    let sets (i : Instr) (y : Seam) : Prop :=
      Leaves i s ((s.setBlock (tkBk tk) { b with seams := Sparse.set b.seams n y }).setThread tk next)
    let traps (i : Instr) (sub val : Nat) : Prop := Leaves i s (s.takeTrap tk
      ⟨0x0A, val * 2 ^ 32 + bit1 x.phase * 2 ^ 31 + x.sig * 2 ^ 18 + x.declared * 64 + n, sub⟩ s.cur.id false)
    (Executes .seamset f s tk t b → v ≤ 4095 → s.seamBusy (tkBk tk) b n = false →
      sets (.seamset f) { x with declared := v, sig := 0 }) ∧
    (Executes .seamset f s tk t b → 4095 < v → traps (.seamset f) 0 v) ∧
    (Executes .seamset f s tk t b → v ≤ 4095 → s.seamBusy (tkBk tk) b n = true → traps (.seamset f) 2 0) ∧
    (Executes .seamsign f s tk t b → s.operandOk tk t = true → x.sig < 8191 → sets (.seamsign f) { x with sig := x.sig + 1 }) ∧
    (Executes .seamsign f s tk t b → s.operandOk tk t = true → 8191 ≤ x.sig → traps (.seamsign f) 1 0) ∧
    (Executes .seamsign f s tk t b → s.operandOk tk t = false → ∃ k,
      Leaves (.seamsign f) s (s.setThread tk { t with wait := .operand, waitSince := k })) ∧
    (Executes .seamwait f s tk t b → x.phase = f.x.getLsbD 0 → Leaves (.seamwait f) s (s.setThread tk next)) ∧
    (Executes .seamwait f s tk t b → x.phase ≠ f.x.getLsbD 0 → ∃ k,
      Leaves (.seamwait f) s (s.setThread tk { t with wait := .seam n (f.x.getLsbD 0), waitSince := k })) ∧
    (Executes .seamtest f s tk t b → ∃ s' u, Leaves (.seamtest f) s s' ∧ s'.thread? tk = some u ∧ WentOn t u (t.pc + 12) ∧
      WrotePred t u (f.d.toNat % 8) (x.phase == f.x.getLsbD 0) ∧ ∀ k, k ≠ tk → s'.thread? k = s.thread? k)

/-! ### Class 100 (chapters 3 to 5, 10 and 23) -/

/-- R50, R96, R391, R392, R393, R395, R397, R398. What the checks at a memory port answer for n bytes at an address: an address past 2^56 takes cause
0x04 with SUB 6, a misaligned one that must be aligned cause 0x03; with the page in the TLB, the permissions give cause 0x05 or pieces that
tile the bytes, each naturally aligned, at their physical addresses; without it a walk is needed. An own scratchpad address is checked
against the allocation and names the core's own copy. The walks that deterministic mode makes at once change no byte (R44). -/
def Obligations.MemoryPorts : Prop :=
  ∀ (s : State) (tk : Nat) (t : Thread) (b : Block) (q : PortAsk) (ea : Nat), 0 < q.n → q.n ≤ 16 →
    let aligned : Prop := ∀ sub, q.align = some sub → ea % q.n = 0
    let page := ea / 65536
    let tiles (ps : List PortPiece) (place : Nat → Place) : Prop :=
      (ps.map (·.len)).sum = q.n ∧ (∀ j, j < q.n → ∃ p ∈ ps, p.part ≤ j ∧ j < p.part + p.len) ∧
      ∀ p ∈ ps, p.len ∈ [1, 2, 4, 8, 16] ∧ (ea + p.part) % p.len = 0 ∧ p.place = place (ea + p.part)
    let port := s.globalPort tk t b q ea
    (2 ^ 56 < ea + q.n → port = .trap ⟨0x04, max ea (2 ^ 56), q.tinfo ea 6⟩) ∧
    (∀ sub, ea + q.n ≤ 2 ^ 56 → q.align = some sub → ea % q.n ≠ 0 → port = .trap ⟨0x03, ea, q.tinfo ea sub⟩) ∧
    (ea + q.n ≤ 2 ^ 56 → aligned → (ea + q.n - 1) / 65536 = page →
      (∀ e, s.tlbFind (tkCore tk) b.asid page = some e →
        let refused : Option Nat :=
          if t.mode = .user ∧ b.asid ≠ 0 ∧ e.u = false then some 0
          else if q.w = true ∧ e.w = false then some 1
          else if q.rmw = true ∧ e.mt = 2 then some 3
          else none
        (∀ sub, refused = some sub → port = .trap ⟨0x05, ea, q.tinfo ea sub⟩) ∧
        (refused = none → ∃ ps, port = .ok ps ∧ tiles ps (fun va =>
          if e.mt = 2 then .dev (e.base + (va - e.vpn * 65536)) else .dram (e.base + (va - e.vpn * 65536)) (e.mt == 1)))) ∧
      (s.tlbFind (tkCore tk) b.asid page = none → t.walkFail = none → (s.core (tkCore tk)).det = false →
        port = .miss (page * 65536)) ∧
      (∀ i, s.tlbFind (tkCore tk) b.asid page = none → t.walkFail = some (page, i) →
        port = .trap ⟨i.cause, ea, q.tinfo ea i.tinfo⟩)) ∧
    (ea < 2 ^ 31 → aligned → (q.mirror = false ∨ b.desc.mirrored = false) →
      (b.spsize < ea + q.n → b.scrPort q ea = .trap ⟨0x06, max ea b.spsize, { q with space := 1 }.tinfo ea 0⟩) ∧
      (ea + q.n ≤ b.spsize → ∃ ps, b.scrPort q ea = .ok ps ∧ tiles ps (fun a => .scr [(b.core, b.bslot, a)]))) ∧
    (let s0 := s.walkPort (tkCore tk) b.asid q ea
     ((s.core (tkCore tk)).det = false → s0 = s) ∧
     (s.memOk → s.linesOk → SameBytes s s0 ∧ s0.threads = s.threads ∧ s0.blocks = s.blocks ∧ s0.reqs = s.reqs))

/-- R214, R216, R217. GLD, SLD and LLD put one load for each piece of the checked address into flight, open a window of LA instructions
for their registers, and retire; memory is unchanged. In deterministic mode the walks of the access's pages are made before (R44).
R163, R214, R216, R218. GST, SST and LST put the little-endian bytes of source B into flight, piece by piece of the checked address,
count once in %pst, and retire; memory is unchanged until the pieces are performed. In deterministic mode the walks of the access's pages
are made before (R44).
R221, R222, R224, R225. The atomics put one aligned read-modify-write into flight: with a window for the old value (GAMO, SAMO, GCAS, SCAS),
or counted in %pst (GRED, SRED); memory is unchanged until it is performed. In deterministic mode the walk of the page is made before
(R44). -/
def Obligations.LoadsStoresAndAtomics : Prop :=
  (∀ (f : Fields) (s : State) (tk : Nat) (t : Thread) (b : Block) (ps : List PortPiece),
    let walked (q : PortAsk) (ea : Nat) : State := s.walkPort (tkCore tk) b.asid q ea
    let loads (i : Instr) (op : Op) (s0 : State) (port : PortEnd) : Prop :=
      Executes op f s tk t b → port = .ok ps → s0.portWait tk t ps = none →
        ∃ s' p, exec i s = .next s' ∧
          Sent s0 s' tk t { t.retireTo (t.pc + 12) with pends := (t.retireTo (t.pc + 12)).pends ++ [p], walkFail := none } ps
            (fun c => .load c.len) (ordOf f.top3) (scopeOf f.sc) (some s0.nextId) false ∧
          p.id = s0.nextId ∧ p.op = op ∧ p.left = f.la.toNat ∧ p.kind = .load (szBytes f.sz) (decide (f.sz = 5 ∨ f.sz = 6 ∨ f.sz = 7)) ∧
          p.regs = (List.range f.zregs).map (f.d.toNat + ·) ∧ p.need = szBytes f.sz ∧ p.ready = false ∧ p.mark = none ∧ p.pred = none
    let global := (opndA .gld t b f + (f.imm.signExtend 64).toNat) % 2 ^ 64
    let scratch := (opndA .sld t b f + f.imm.toNat) % 2 ^ 32
    let loc := (b.tlBase (tkThr tk) + (opndA .lld t b f + f.imm.toNat) % 2 ^ 32) % 2 ^ 64
    let gq := plainAsk .gld f false 0 false
    let lq := plainAsk .lld f false 3 false
    loads (.gld f) .gld (walked gq global) ((walked gq global).globalPort tk t b gq global) ∧
    loads (.sld f) .sld s (b.scrPort (plainAsk .sld f false (if scratch < 2 ^ 31 then 1 else 2) false) scratch) ∧
    loads (.lld f) .lld (walked lq loc) ((walked lq loc).globalPort tk t b lq loc)) ∧
  (∀ (f : Fields) (s : State) (tk : Nat) (t : Thread) (b : Block) (ps : List PortPiece),
    let walked (q : PortAsk) (ea : Nat) : State := s.walkPort (tkCore tk) b.asid q ea
    let stores (i : Instr) (op : Op) (s0 : State) (port : PortEnd) : Prop :=
      Executes op f s tk t b → port = .ok ps → s0.portWait tk t ps = none →
        ∃ s', exec i s = .next s' ∧
          Sent s0 s' tk t { t.retireTo (t.pc + 12) with pst := t.pst + 1, walkFail := none } ps
            (fun c => .store ((List.range c.len).map (fun j =>
              if c.part + j < szBytes f.sz then BitVec.ofNat 8 (opndB op t b f / 256 ^ (c.part + j)) else 0)))
            (ordOf f.top3) (scopeOf f.sc) none true
    (∀ c ∈ ps, c.part + c.len ≤ szBytes f.sz) →
    let global := (opndA .gst t b f + (f.imm.signExtend 64).toNat) % 2 ^ 64
    let scratch := (opndA .sst t b f + f.imm.toNat) % 2 ^ 32
    let loc := (b.tlBase (tkThr tk) + (opndA .lst t b f + f.imm.toNat) % 2 ^ 32) % 2 ^ 64
    let gq := plainAsk .gst f true 0 false
    let lq := plainAsk .lst f true 3 false
    stores (.gst f) .gst (walked gq global) ((walked gq global).globalPort tk t b gq global) ∧
    stores (.sst f) .sst s (b.scrPort (plainAsk .sst f true (if scratch < 2 ^ 31 then 1 else 2) true) scratch) ∧
    stores (.lst f) .lst (walked lq loc) ((walked lq loc).globalPort tk t b lq loc)) ∧
  (∀ (f : Fields) (s : State) (tk : Nat) (t : Thread) (b : Block) (c : PortPiece),
    let n := szBytes f.sz
    let next := t.retireTo (t.pc + 12)
    let ask (op : Op) (space : Nat) : PortAsk := { rmwAsk op f with space := space }
    let ea (op : Op) := (opndA op t b f + (f.imm.signExtend 64).toNat) % 2 ^ 64
    let walked (op : Op) : State := s.walkPort (tkCore tk) b.asid (ask op 0) (ea op)
    let global (op : Op) := (walked op).globalPort tk t b (ask op 0) (ea op)
    let scratch (op : Op) :=
      let a := (opndA op t b f + f.imm.toNat) % 2 ^ 32
      b.scrPort (ask op (if a < 2 ^ 31 then 1 else 2)) a
    let rmw (op : Op) (ret : Bool) : Action := .rmw (f.x.toNat % 16) (8 * n) (opndB op t b f) ret
    let cas (op : Op) : Action := .cas n (opndB op t b f) (opndC op t b f)
    let returns (i : Instr) (op : Op) (s0 : State) (port : PortEnd) (act : Action) : Prop :=
      Executes op f s tk t b → port = .ok [c] → s0.portWait tk t [c] = none →
        ∃ s' p, exec i s = .next s' ∧
          Sent s0 s' tk t { next with pends := next.pends ++ [p], walkFail := none } [c] (fun _ => act) (ordOf f.top3) (scopeOf f.sc)
            (some s0.nextId) false ∧
          p.id = s0.nextId ∧ p.op = op ∧ p.left = f.la.toNat ∧ p.kind = .atom ∧ p.regs = destRegs op b.limits f ∧ p.need = n ∧
          p.ready = false ∧ p.mark = none ∧ p.pred = none
    let reduces (i : Instr) (op : Op) (s0 : State) (port : PortEnd) : Prop :=
      Executes op f s tk t b → port = .ok [c] → s0.portWait tk t [c] = none →
        ∃ s', exec i s = .next s' ∧ Sent s0 s' tk t { next with pst := t.pst + 1, walkFail := none } [c] (fun _ => rmw op false)
          (ordOf f.top3) (scopeOf f.sc) none true
    returns (.gamo f) .gamo (walked .gamo) (global .gamo) (rmw .gamo true) ∧
    returns (.samo f) .samo s (scratch .samo) (rmw .samo true) ∧
    returns (.gcas f) .gcas (walked .gcas) (global .gcas) (cas .gcas) ∧
    returns (.scas f) .scas s (scratch .scas) (cas .scas) ∧
    reduces (.gred f) .gred (walked .gred) (global .gred) ∧
    reduces (.sred f) .sred s (scratch .sred))

/-- R52, R104, R391. Where a check of its port fails, GLD, GST, LLD, LST, GAMO, GRED, GCAS, SLD, SST, SAMO, SRED and SCAS take the trap without
retiring; where a translation is missing they wait for its walk, and where the thread has a device-type access still in flight a new
one waits. Memory is unchanged. In deterministic mode the walks of the access's pages are made before (R44). -/
def Obligations.MemoryPortTraps : Prop :=
  ∀ (f : Fields) (s : State) (tk : Nat) (t : Thread) (b : Block),
    let g (op : Op) := (opndA op t b f + (f.imm.signExtend 64).toNat) % 2 ^ 64
    let a (op : Op) := (opndA op t b f + f.imm.toNat) % 2 ^ 32
    let l (op : Op) := (b.tlBase (tkThr tk) + a op) % 2 ^ 64
    let sp (op : Op) : Nat := if a op < 2 ^ 31 then 1 else 2
    let ends (i : Instr) (op : Op) (s0 : State) (port : PortEnd) : Prop := Executes op f s tk t b →
      let leaves (s' : State) : Prop := exec i s = .next s' ∧ SameBytes s0 s'
      (∀ x, port = .trap x → leaves ((s0.setThread tk { t with walkFail := none }).takeTrap tk x s.cur.id false)) ∧
      (∀ va, port = .miss va → ∃ s' u id, leaves s' ∧ s'.thread? tk = some u ∧ u = { t with wait := .dataWalk id, waitSince := u.waitSince } ∧
        ∃ w ∈ s'.walks, w.id = id ∧ w.core = tkCore tk ∧ w.asid = b.asid ∧ w.vpn = va / 65536) ∧
      (∀ ps w, port = .ok ps → s0.portWait tk t ps = some w →
        ∃ k, leaves (s0.setThread tk { t with wait := w, waitSince := k }))
    let global (i : Instr) (op : Op) (q : PortAsk) (ea : Nat) : Prop :=
      let s0 := s.walkPort (tkCore tk) b.asid q ea
      ends i op s0 (s0.globalPort tk t b q ea)
    global (.gld f) .gld (plainAsk .gld f false 0 false) (g .gld) ∧
    global (.gst f) .gst (plainAsk .gst f true 0 false) (g .gst) ∧
    global (.lld f) .lld (plainAsk .lld f false 3 false) (l .lld) ∧
    global (.lst f) .lst (plainAsk .lst f true 3 false) (l .lst) ∧
    global (.gamo f) .gamo (rmwAsk .gamo f) (g .gamo) ∧
    global (.gred f) .gred (rmwAsk .gred f) (g .gred) ∧
    global (.gcas f) .gcas (rmwAsk .gcas f) (g .gcas) ∧
    ends (.sld f) .sld s (b.scrPort (plainAsk .sld f false (sp .sld) false) (a .sld)) ∧
    ends (.sst f) .sst s (b.scrPort (plainAsk .sst f true (sp .sst) true) (a .sst)) ∧
    ends (.samo f) .samo s (b.scrPort { rmwAsk .samo f with space := sp .samo } (a .samo)) ∧
    ends (.sred f) .sred s (b.scrPort { rmwAsk .sred f with space := sp .sred } (a .sred)) ∧
    ends (.scas f) .scas s (b.scrPort { rmwAsk .scas f with space := sp .scas } (a .scas))

/-- R99, R102, R103, R227, R228. FENCE retires once every earlier access of the thread has returned or is performed at its scope, and else
waits; what the thread's .rlx reads had found within its scope now happens before its next accesses, its own writes in flight are kept for its later
.rlx writes and for the FENCEs that follow in the fence order, and it takes over those of the FENCEs before it. MARK retires at once and
divides the block's accesses.
R73, R226, R229 to R231, R392. PREF brings a line nearer and never traps; CCTL, once its range is checked and a FENCE at its scope would
complete, writes back (.wb), drops (.inv) or writes back and drops (.wbinv) the lines of the range whose home its scope reaches. PREF,
.wb and .wbinv leave every byte as it reads; .inv alone may let a byte fall back to what DRAM holds. The walks of the range's pages are made
first, and change no byte (log 9). -/
def Obligations.FencesMarkersAndCaches : Prop :=
  (∀ (f : Fields) (s : State) (tk : Nat) (t : Thread) (b : Block),
    let sc := scopeOf f.sc
    let next := t.retireTo (t.pc + 12)
    let flying (i : Nat) : Prop := (∃ r ∈ s.reqs, r.id = i) ∨ s.isSaved i = true
    (Executes .fence f s tk t b → s.fenceOk tk t sc = true → ∃ hb seen fenced ordered fences ws,
      Leaves (.fence f) s ({ s with fences := fences }.setThread tk
        { next with hb := hb, seen := seen, fenced := (sc, ws) :: fenced, ordered := ordered }) ∧
      (∀ i, i ∈ hb ↔ flying i ∧ (i ∈ t.hb ∨ ∃ x ∈ t.seen, x.2.2 = i ∧ covers (x.1.narrow sc) x.2.1 tk = true)) ∧
      (∀ x, x ∈ seen ↔ x ∈ t.seen ∧ covers (x.1.narrow sc) x.2.1 tk = false) ∧
      (∀ i, i ∈ ws ↔ i ∈ hb ∨ ∃ r ∈ s.reqs, r.id = i ∧ r.tk = tk ∧ r.act.writes = true) ∧
      (∀ x, x ∈ fenced ↔ x ∈ t.fenced ∧ sc.rank < x.1.rank) ∧
      (∀ i, i ∈ ordered ↔ flying i ∧
        (i ∈ t.ordered ∨ ∃ x ∈ s.fences, x.1 = sc ∧ x.2.1 ≠ tk ∧ covers sc x.2.1 tk = true ∧ i ∈ x.2.2)) ∧
      ∀ r ∈ s.reqs, r.tk = tk → r.act.writes = true → ∃ x ∈ fences, x.1 = sc ∧ x.2.1 = tk ∧ r.id ∈ x.2.2) ∧
    (Executes .fence f s tk t b → s.fenceOk tk t sc = false → ∃ k,
      Leaves (.fence f) s (s.setThread tk { t with wait := .fence sc, waitSince := k })) ∧
    (Executes .mark f s tk t b → bkOf s.cur.core s.cur.bslot = tkBk tk →
      Leaves (.mark f) s ((s.setThread tk next).setBlock (tkBk tk) { b with marks := b.marks + 1 }))) ∧
  (∀ (f : Fields) (s : State) (tk : Nat) (t : Thread) (b : Block), s.memOk → s.linesOk →
    let ea := (opndA .cctl t b f + (f.imm.signExtend 64).toNat) % 2 ^ 64
    let len := opndB .cctl t b f
    let op := f.x.toNat % 4
    let s1 := if ea + len > 2 ^ 56 then s else s.walkEach (tkCore tk) b.asid ((rangePages ea len).map (· * 65536))
    let lines := cctlLines s1 b ea len
    let reached (ln : Nat) : Prop := ln ∈ lines ∧ (f.sc ≥ 2 ∨ paSite (ln * 128) = tkCore tk / 4)
    let next := t.retireTo (t.pc + 12)
    (Executes .pref f s tk t b → ∃ s', Leaves (.pref f) s s' ∧ s'.thread? tk = some next ∧ (∀ k, k ≠ tk → s'.thread? k = s.thread? k) ∧
      s'.blocks = s.blocks ∧ s'.reqs = s.reqs) ∧
    (SameBytes s s1 ∧ s1.threads = s.threads ∧ s1.reqs = s.reqs) ∧
    (Executes .cctl f s tk t b → ∀ x, cctlCheck s1 t b ea len (op != 0) = some x →
      Leaves (.cctl f) s (s1.takeTrap tk x s.cur.id false)) ∧
    (Executes .cctl f s tk t b → cctlCheck s1 t b ea len (op != 0) = none → s1.fenceOk tk t (scopeOf (max 1 f.sc)) = false →
      ∃ k, Leaves (.cctl f) s (s1.setThread tk { t with wait := .fence (scopeOf (max 1 f.sc)), waitSince := k })) ∧
    (Executes .cctl f s tk t b → cctlCheck s1 t b ea len (op != 0) = none → s1.fenceOk tk t (scopeOf (max 1 f.sc)) = true →
      ∃ s', exec (.cctl f) s = .next s' ∧ s'.thread? tk = some next ∧ (∀ k, k ≠ tk → s'.thread? k = s.thread? k) ∧
        s'.blocks = s.blocks ∧ s'.reqs = s.reqs ∧
        (∀ ln, ln ∉ lines → Sparse.get? s'.lines ln = Sparse.get? s1.lines ln) ∧
        (op ≠ 1 → SameBytes s s') ∧
        (op = 1 → (∀ pa, s'.homeByte pa = s.homeByte pa ∨ (reached (pa / 128) ∧ s'.homeByte pa = s1.dramByte pa)) ∧
          ∀ c o, Memory.read (s'.core c).scratch o = Memory.read (s.core c).scratch o) ∧
        (∀ ln, reached ln →
          (op = 0 → (∀ i, i < 128 → s'.dramByte (ln * 128 + i) = s.homeByte (ln * 128 + i)) ∧
            ∀ l, Sparse.get? s'.lines ln = some l → l.dirty = false) ∧
          (op = 1 → Sparse.get? s'.lines ln = none) ∧
          (op = 2 → Sparse.get? s'.lines ln = none ∧
            ∀ i, i < 128 → s'.dramByte (ln * 128 + i) = s.homeByte (ln * 128 + i)))))

/-- R12, R14, R63, R95, R97, R223, R225, R404, Table 5.4. HOME_SLICE_REQUEST moves an access on from the slice to the request mesh and, to
another site, to the Hem station and over the mesh there, behind those that were sent before it, together with the writes of its issue to
its granule; at its home slice it is performed: a store's bytes are there, but where a write of higher precedence has come in the cycle,
and no other byte changes, a load's bytes reach its window with memory unchanged, and a read-modify-write or a compare-and-swap does both
at once. Poison marks what a read returns, and a read-modify-write that meets it writes nothing. With a stale GEN an access is answered
with a retry (R60).
R68 to R70, R399, R400. SCRATCHPAD_PEER_ACCESS performs the next copy of a scratchpad access: a store writes that copy alone, a load takes
its bytes, an atomic does both at once; where a write of higher precedence has come in the cycle, its bytes stay (R97), and poison marks
what is read and leaves an atomic without effect (R404). A copy whose block has left the quilt drops the write, which is counted as an
orphan, and a load gets zeros and a mark. -/
def Obligations.HomeSliceAndScratchpadAccesses : Prop :=
  (∀ (s : State) (id : Nat) (r : Req) (pa : Nat) (unc : Bool), s.memOk → s.linesOk →
    s.reqs.find? (fun r => r.id = id) = some r → r.place = .dram pa unc → s.mayPerform r = true → s.ownDram pa = true →
    let n := r.act.len
    let site := s.site (paSite pa)
    let i : Instr := .homeSliceRequest id
    let come : Prop := r.stage = .far ∨ (r.stage = .mesh ∧ paSite pa = tkCore r.tk / 4)
    let there : Prop := r.gen = site.gen r.dom ∧ come
    let overruled (a : Nat) : Prop := ∃ w ∈ s.cycleWrites, precedence 3 (s.reqRank r.tk) < w.rank ∧ w.space = 0 ∧ w.at_ ≤ a ∧ a < w.at_ + w.n
    let got (s' : State) (bs : List Byte) (mark : Option FaultMark) : Prop := ∀ w t, r.pend = some w → s.thread? r.tk = some t →
      s'.thread? r.tk = some { t with pends := t.pends.map (fun p => if p.id = w then p.gets r.part bs mark else p) }
    let done (s' : State) : Prop := s'.reqs.find? (fun r => r.id = id) = some { r with stage := .done }
    let whole : Prop := pa % 128 + n ≤ 128 ∧ site.quadOk (frameOf (paOfs pa)) = true ∧ s.vaultLost pa = false ∧
      s.unreachable (tkCore r.tk / 4) pa = none
    let clean : Prop := s.poisonIn pa n = none
    let writes (s' : State) (bs : List Byte) : Prop :=
      (∀ a, s'.homeByte a = if pa ≤ a ∧ a < pa + n then bs.getD (a - pa) 0 else s.homeByte a) ∧
      ∀ c o, Memory.read (s'.core c).scratch o = Memory.read (s.core c).scratch o
    let old := leNat ((List.range n).map (fun i => s.homeByte (pa + i)))
    let held : Prop := ∃ e ∈ s.reqs, ∃ pb u, e.place = .dram pb u ∧ e.seq < r.seq ∧ e.stage = r.stage ∧
      ((r.stage = .mesh ∧ tkCore e.tk = tkCore r.tk ∧ s.meshGoal e pb = s.meshGoal r pa) ∨
        (r.stage = .hem ∧ tkCore e.tk / 4 = tkCore r.tk / 4 ∧ s.hemGoal pb = s.hemGoal pa) ∨
        (r.stage = .far ∧ paSite pb = paSite pa ∧ hemExit (s.routeOf e pb) = hemExit (s.routeOf r pa) ∧
          s.unitAt e.place pb = s.unitAt r.place pa))
    ¬held ∧
    (∀ e ∈ s.reqs, r.stage = .held → r.mates e = true → e.id < id → (s.reqs.map (·.id)).Nodup → ∃ s' d, exec i s = .next s' ∧
      s'.reqs.find? (fun x => x.id = e.id) = some { e with stage := .mesh, seq := s.clk, due := d }) ∧
    (s.batch r = [id] →
    (r.stage = .held → ∃ s' d, Leaves i s s' ∧
      s'.reqs.find? (fun r => r.id = id) = some { r with stage := .mesh, seq := s.clk, due := d }) ∧
    (r.stage = .mesh → paSite pa ≠ tkCore r.tk / 4 → ∃ s' d, Leaves i s s' ∧
      (r.act.writes = true → ∀ l, Sparse.get? s'.lines (pa / 128) = some l → l.sharers.getLsbD (tkCore r.tk / 4) = false) ∧
      s'.reqs.find? (fun r => r.id = id) =
        some { r with stage := .hem, seq := s.clk, hem := if r.hem.isSome then r.hem else some s.clk, due := d }) ∧
    (r.stage = .hem → ∃ s' d, Leaves i s s' ∧
      s'.reqs.find? (fun r => r.id = id) = some { r with stage := .far, seq := s.clk, due := d }) ∧
    (r.gen ≠ site.gen r.dom → come → ∃ s', Leaves i s s' ∧
      s'.reqs.find? (fun r => r.id = id) = some { r with stage := .retry }) ∧
    (∀ bs, there → whole → r.act = .store bs → r.counted = true → ∃ s', exec i s = .next s' ∧
      (∀ a, (pa ≤ a ∧ a < pa + n ∧ ¬overruled a → s'.homeByte a = bs.getD (a - pa) 0) ∧
        (¬(pa ≤ a ∧ a < pa + n) ∨ overruled a → s'.homeByte a = s.homeByte a)) ∧
      (∀ c o, Memory.read (s'.core c).scratch o = Memory.read (s.core c).scratch o) ∧
      s'.threads = s.threads ∧ s'.blocks = s.blocks ∧ done s') ∧
    (∀ k, there → whole → r.act = .load k → r.ord = .plain → r.counted = false → r.pend.isSome = true →
      ∃ s', Leaves i s s' ∧ s'.blocks = s.blocks ∧ done s' ∧
        got s' ((List.range k).map (fun i => s.homeByte (pa + i))) ((s.poisonIn pa n).map (fun o => ⟨0x14, o⟩))) ∧
    (∀ nv fl, there → whole → clean → (∃ o w b x, r.act = .rmw o w b x) ∨ (∃ m x y, r.act = .cas m x y) → rmwNew r.act old = (nv, fl) →
      r.ord = .plain → r.counted = true ∨ r.pend.isSome = true → ∃ s', exec i s = .next s' ∧
        (∀ v, nv = some v → writes s' (leBytes n v)) ∧ (nv = none → SameBytes s s') ∧ done s' ∧ got s' (leBytes n old) none ∧
        (r.pend = none → s'.threads = s.threads) ∧
        ∀ c, s.block? (tkBk r.tk) = some c → ∃ d, s'.block? (tkBk r.tk) = some d ∧ FlagsSet c d r.home fl) ∧
    (∀ o, there → whole → s.poisonIn pa n = some o → (∃ o w b x, r.act = .rmw o w b x) ∨ (∃ m x y, r.act = .cas m x y) →
      r.ord = .plain → r.counted = true ∨ r.pend.isSome = true → ∃ s', Leaves i s s' ∧ done s' ∧
        got s' (leBytes n old) (some ⟨0x14, o⟩) ∧
        ∀ t, r.pend = none → s.thread? r.tk = some t → t.exited = false → ∃ u, s'.thread? r.tk = some u ∧
          u.reports = t.reports ++ [⟨0x14, r.trap.tval, r.trap.tinfo % 2 ^ 16 + o * 2 ^ 16⟩]))) ∧
  (∀ (s : State) (id : Nat) (r : Req) (c e o : Nat) (rest : List (Nat × Nat × Nat)),
    s.reqs.find? (fun r => r.id = id) = some r → r.place = .scr ((c, e, o) :: rest) → s.mayPerform r = true →
    s.batch r = [id] → (s.core c).scratch.wf = true →
    let i : Instr := .scratchpadPeerAccess id
    let after (d : Nat) : Option Req := if rest = [] then some { r with stage := .done, place := .scr [] }
      else some { r with place := .scr rest, due := d }
    let overruled (a : Nat) : Prop := ∃ w ∈ s.cycleWrites, precedence 3 (s.reqRank r.tk) < w.rank ∧ w.space = 1 + c ∧ w.at_ ≤ a ∧ a < w.at_ + w.n
    let got (s' : State) (bs : List Byte) (mark : Option FaultMark) : Prop := ∀ w t, r.pend = some w → s.thread? r.tk = some t →
      s'.thread? r.tk = some { t with pends := t.pends.map (fun p => if p.id = w then p.gets r.part bs mark else p) }
    r.counted = true ∨ r.pend.isSome = true →
    (∀ bs d, r.act = .store bs → s.copyBlock r.tk (c, e, o) = some d → ∃ s' n, exec i s = .next s' ∧
      OnlyScratch s s' c (d.spbase + o) bs.length ∧
      (∀ j, j < bs.length →
        (¬overruled (d.spbase + o + j) → Memory.read (s'.core c).scratch (d.spbase + o + j) = bs.getD j 0) ∧
        (overruled (d.spbase + o + j) → Memory.read (s'.core c).scratch (d.spbase + o + j) = Memory.read (s.core c).scratch (d.spbase + o + j))) ∧
      s'.threads = s.threads ∧ s'.blocks = s.blocks ∧ s'.reqs.find? (fun r => r.id = id) = after n) ∧
    (∀ n d, r.act = .load n → r.ord = .plain → s.copyBlock r.tk (c, e, o) = some d → ∃ s' m, Leaves i s s' ∧
      s'.reqs.find? (fun r => r.id = id) = after m ∧
      got s' ((List.range n).map (fun j => Memory.read (s.core c).scratch (d.spbase + o + j)))
        ((s.scrPoisonIn c (d.spbase + o) n).map (fun x => ⟨0x14, x⟩))) ∧
    (∀ d nv fl, (∃ o w b x, r.act = .rmw o w b x) ∨ (∃ m x y, r.act = .cas m x y) → r.ord = .plain → s.copyBlock r.tk (c, e, o) = some d →
      let n := r.act.len
      let old := leNat ((List.range n).map (fun j => Memory.read (s.core c).scratch (d.spbase + o + j)))
      rmwNew r.act old = (nv, fl) → ∃ s', exec i s = .next s' ∧ OnlyScratch s s' c (d.spbase + o) n ∧
        s'.reqs.find? (fun r => r.id = id) = some { r with stage := .done, place := .scr [] } ∧
        (s.scrPoisonIn c (d.spbase + o) n = none →
          (∀ v j, nv = some v → j < n → Memory.read (s'.core c).scratch (d.spbase + o + j) = (leBytes n v).getD j 0) ∧
          (nv = none → SameBytes s s') ∧ got s' (leBytes n old) none ∧
          ∀ b, s.block? (tkBk r.tk) = some b → ∃ b', s'.block? (tkBk r.tk) = some b' ∧ FlagsSet b b' r.home fl) ∧
        (∀ x, s.scrPoisonIn c (d.spbase + o) n = some x → SameBytes s s' ∧ got s' (leBytes n old) (some ⟨0x14, x⟩) ∧
          ∀ t, r.pend = none → s.thread? r.tk = some t → t.exited = false → ∃ u, s'.thread? r.tk = some u ∧
            u.reports = t.reports ++ [⟨0x14, r.trap.tval, r.trap.tinfo % 2 ^ 16 + x * 2 ^ 16⟩])) ∧
    (∀ bs b, r.act = .store bs → r.ord = .plain → s.copyBlock r.tk (c, e, o) = none → s.block? (tkBk r.tk) = some b → ∃ s' d n, Leaves i s s' ∧
      s'.threads = s.threads ∧ s'.reqs.find? (fun r => r.id = id) = after n ∧
      s'.block? (tkBk r.tk) = some d ∧ d = { b with orphans := min (b.orphans + 1) 0xFFFFFFFF }) ∧
    (∀ n w t, r.act = .load n → r.pend = some w → s.copyBlock r.tk (c, e, o) = none → s.thread? r.tk = some t → ∃ s' m, Leaves i s s' ∧
      s'.reqs.find? (fun r => r.id = id) = after m ∧
      s'.thread? r.tk = some { t with pends := t.pends.map (fun p => if p.id = w then
        p.gets r.part (List.replicate n 0) (some ⟨0x07, 2⟩) else p) }))

/-- R216, R217, R221, R225, Table 6.10. What arrives in a load's window is the little-endian number of its bytes, in whatever order two pieces
come, zero- or sign-extended to its registers; and the new value of a read-modify-write of W bits is its operation on the old value and
the operand, where a compare-and-swap writes only if the old value is the expected one.
R31, R52, R60, R163, R168, R202, R389, R394, R402. The other moments of an access: a retry takes the current GEN to the mesh again; an acknowledged store
leaves flight and lowers %pst with its last piece; a walk's end wakes who waits for it, with the translation in the TLBs or the failure
noted; and a result is written to its register with its mark, or VOTE's to its predicate, unless an instruction of the window is to write
that register later, its window closing with the last. Which of two values of one cycle stands is log 10. -/
def Obligations.ValuesAndAccessesInFlight : Prop :=
  ((∀ (p : Pend) (n d : Nat) (sg : Bool) (xs ys : List Byte), p.kind = .load n sg → p.need = n → p.buf = [] → p.ready = false → p.mark = none →
    p.regs = (List.range (if n = 8 then 2 else if n = 16 then 4 else 1)).map (d + ·) → n ∈ [1, 2, 4, 8, 16] → (sg = true → n ≤ 2) →
    xs.length + ys.length = n →
    let full (q : Pend) : Prop := q.ready = true ∧ q.mark = none ∧ ∀ i, i < (if n = 8 then 2 else if n = 16 then 4 else 1) →
      Sparse.get? q.vals (d + i) = some (
        if sg then (if n = 1 then ((xs ++ ys).getD 0 0).signExtend 32
          else (((xs ++ ys).getD 1 0) ++ ((xs ++ ys).getD 0 0)).signExtend 32)
        else (((xs ++ ys).getD (4 * i + 3) 0) ++ ((xs ++ ys).getD (4 * i + 2) 0) ++ ((xs ++ ys).getD (4 * i + 1) 0) ++
          ((xs ++ ys).getD (4 * i) 0)))
    full (p.gets 0 (xs ++ ys) none) ∧
    (xs ≠ [] → ys ≠ [] → full ((p.gets 0 xs none).gets xs.length ys none) ∧ full ((p.gets xs.length ys none).gets 0 xs none) ∧
      (p.gets 0 xs none).ready = false)) ∧
  (∀ (w a b : Nat), w = 32 ∨ w = 64 → a < 2 ^ w → b < 2 ^ w →
    let v (op : Nat) := (redOp op w a b).1
    let int (x : Nat) : Int := (BitVec.ofNat w x).toInt
    v 0 = (a + b) % 2 ^ w ∧
    v 1 = (if int a ≤ int b then a else b) ∧ v 2 = (if int a ≤ int b then b else a) ∧
    v 3 = (if a ≤ b then a else b) ∧ v 4 = (if a ≤ b then b else a) ∧
    v 5 = (BitVec.ofNat w a &&& BitVec.ofNat w b).toNat ∧ v 6 = (BitVec.ofNat w a ||| BitVec.ofNat w b).toNat ∧
    v 7 = (BitVec.ofNat w a ^^^ BitVec.ofNat w b).toNat ∧ v 8 = b ∧
    (∀ op, op ≤ 8 → (redOp op w a b).2 = 0) ∧
    (w = 32 → v 10 = fp32.extreme false a b ∧ v 11 = fp32.extreme true a b ∧
      ∀ f : Fields, f.fn = 0 → ∀ e : Opnds, e.a = a → e.b = b →
        (outFadd f e).val = some (v 9) ∧ (outFadd f e).flags = (redOp 9 w a b).2) ∧
    ∀ n old, rmwNew (.cas n a b) old = (if old = a then some b else none, 0))) ∧
  ((∀ (s : State) (id : Nat) (r : Req) (pa : Nat) (unc : Bool), s.reqs.find? (fun r => r.id = id) = some r → r.place = .dram pa unc →
    r.stage = .retry → ∃ s', Leaves (.genRetry id) s s' ∧
      s'.reqs.find? (fun r => r.id = id) = some
        { r with stage := .mesh, seq := s.clk, gen := s.genOfPa pa, dom := s.domainOfPa pa } ∧ s'.threads = s.threads) ∧
  (∀ (s : State) (id : Nat) (r : Req) (t : Thread), s.reqs.find? (fun r => r.id = id) = some r → r.counted = true → r.stage = .done →
    s.thread? r.tk = some t →
      let mate := s.reqs.any (fun e => e.id != id && e.group == r.group && e.tk == r.tk && e.counted)
      ∃ s', Leaves (.storeAcknowledge id) s s' ∧ s'.reqs = s.reqs.filter (fun e => e.id != id) ∧
        s'.thread? r.tk = some (if mate then t else { t with pst := t.pst - 1 })) ∧
  (∀ (s : State) (id tk : Nat) (w : Walk) (t : Thread), s.memOk → s.linesOk → s.walks.find? (fun w => w.id = id) = some w → s.thread? tk = some t →
    ∃ s', Leaves (.walkComplete id) s s' ∧ s'.walks.find? (fun w => w.id = id) = none ∧
      (∀ e, s.walk (w.core / 4) w.asid (w.vpn * 65536) = .ok e → e ∈ (s'.core w.core).tlb ∧ e ∈ (s'.site (w.core / 4)).tlb ∧
        s'.thread? tk = some (if t.wait = .walk id then { t with wait := .none }
          else if t.wait = .dataWalk id then { t with wait := .access } else t)) ∧
      (∀ c sub, s.walk (w.core / 4) w.asid (w.vpn * 65536) = .fail c sub → s'.cores = s.cores ∧
        s'.thread? tk = some (if t.wait = .walk id then
          { t with wait := .none, walkFail := some (w.vpn, ⟨c, w.vpn * 65536, sub⟩) }
          else if t.wait = .dataWalk id then
          { t with wait := .access, walkFail := some (w.vpn, ⟨c, w.vpn * 65536, sub⟩) } else t))) ∧
  (∀ (s : State) (tk d reg : Nat) (t : Thread) (p : Pend) (x : Word), s.thread? tk = some t → (t.pends.map (·.id)).Nodup →
    t.pends.find? (fun p => p.id = d) = some p →
    p.ready = true → reg ∈ p.regs → Sparse.get? p.vals reg = some x → t.pendTrap = none → t.spec = none →
      ∃ s' u, Leaves (.longLatencyResult tk d reg) s s' ∧ s'.thread? tk = some u ∧
        let wins : Prop := Sparse.getD p.overAt reg 0 ≤ s.now (tkCore tk)
        (∀ r, (r = reg → wins) → u.reg r = if r = reg then x else t.reg r) ∧ (¬wins → u.reg reg = t.reg reg) ∧
        (∀ r, (r = reg → wins) → Sparse.get? u.marks r = if r = reg then p.mark else Sparse.get? t.marks r) ∧
        (p.regs = [reg] → p.pred = none → ∀ q ∈ u.pends, q.id ≠ d) ∧
        (∀ q ∈ u.pends, q.id = d → reg ∉ q.regs) ∧ u.pc = t.pc ∧ u.p = t.p ∧
        ∀ b, s.block? (tkBk tk) = some b → ∃ c, s'.block? (tkBk tk) = some c ∧ FlagsSet b c p.home p.flags) ∧
  (∀ (s : State) (tk d reg i : Nat) (t : Thread) (p : Pend), s.thread? tk = some t → (t.pends.map (·.id)).Nodup →
    t.pends.find? (fun p => p.id = d) = some p → p.ready = true → p.regs = [] → p.pred = some i → t.pendTrap = none → t.spec = none →
      ∃ s' u, Leaves (.longLatencyResult tk d reg) s s' ∧ s'.thread? tk = some u ∧ u.v = t.v ∧ u.marks = t.marks ∧ u.pc = t.pc ∧
        (∀ j, j < 8 → i < 8 → u.pred j = if j = i ∧ j ≠ 0 ∧ p.predOver ≤ s.now (tkCore tk) then p.pval else t.pred j) ∧
        ∀ q ∈ u.pends, q.id ≠ d))

/-! ### Class 101 (chapters 11 and 24) -/

/-- R239, R253, R416. MMA, RSFILL and the accumulator instructions, once their checks are made, enter the matrix queue with their operands
behind every entry that is there: an MMA and an RSFILL retire, an accumulator instruction waits for its entry. A failing check traps,
and a queue without room makes the thread wait. Memory is unchanged.
R233, R243, R253 to R255. RSFILL_COMPLETE writes the slot's codes and scales from scratchpad, sets its filled bit, makes a residency that is
FILLING and now full VALID, and lands its bytes on the barrier; ACCUMULATOR_ENTRY_COMPLETE zeroes rows (ACCZ), copies a tile (ACCMOV), adds
one (ACCADD), or moves rows to and from scratchpad (ACCST, ACCLD, where what a write of higher precedence has written in the cycle stays,
R97), and its thread goes on; what an accumulator entry issued while an MMA on its tile was in flight reads is left aside (R110). -/
def Obligations.MatrixEntriesAndFills : Prop :=
  (∀ (f : Fields) (s : State) (tk : Nat) (t : Thread) (b : Block) (op : Op) (i : Instr),
    let ops : List (Op × Instr) :=
      [(.mma, .mma f), (.rsfill, .rsfill f), (.accz, .accz f), (.accld, .accld f), (.accst, .accst f), (.accadd, .accadd f),
        (.accmov, .accmov f)]
    let lo := opndB op t b f % 2 ^ 32
    let hi := opndB op t b f / 2 ^ 32
    let stitch := match t.wait with | .matrixRoom k => k | _ => s.cur.id
    (op, i) ∈ ops → Executes op f s tk t b →
      (∀ x, s.mayEnter tk t = true → s.mxCheck op t b f = some x → Leaves i s (s.takeTrap tk x s.cur.id false)) ∧
      (s.mayEnter tk t = false → ∃ k,
        Leaves i s (s.setThread tk { t with wait := .matrixRoom stitch, waitSince := k })) ∧
      (s.mxCheck op t b f = none → s.mayEnter tk t = true → ∃ s' u e, Leaves i s s' ∧ s'.thread? tk = some u ∧
        (∀ k, k ≠ tk → s'.thread? k = s.thread? k) ∧
        (s'.core b.core).mxq.map (·.id) = (s.core b.core).mxq.map (·.id) ++ [s.nextId] ∧ e ∈ (s'.core b.core).mxq ∧ e.id = s.nextId ∧
        e.op = op ∧ e.tk = tk ∧ e.pc = t.pc ∧ e.p = 0 ∧ e.home = flagHome t ∧ e.at_ = f.top2 ∧ e.fmt = f.x.toNat ∧
        (op ≠ .rsfill → e.tile = b.abase + f.d.toNat) ∧ (op = .accadd ∨ op = .accmov → e.tile2 = b.abase + f.a.idx.toNat) ∧
        (op = .mma → e.handle = lo ∧ e.off = hi ∧ e.seam = f.a.idx.toNat % 16 ∧ e.rows = f.imm.toNat % 128 + 1 ∧
          e.staleOk = f.fn.getLsbD 5) ∧
        (op = .rsfill → e.handle = lo ∧ e.off = opndA op t b f ∧ e.bar = f.imm.toNat ∧
          e.slot = lo / 2 ^ 21 % 32 + hi % 32) ∧
        (op = .accz ∨ op = .accld ∨ op = .accst → e.first = f.imm.toNat % 128 ∧ e.rows = f.imm.toNat / 256 % 128 + 1) ∧
        (op = .accld ∨ op = .accst → e.off = opndA op t b f) ∧
        (op = .mma ∨ op = .rsfill → ∃ k, u = { t.retireTo (t.pc + 12) with wait := .mates stitch, waitSince := k }) ∧
        (op ≠ .mma → op ≠ .rsfill → ∃ k, u = { t with wait := .matrixEntry s.nextId stitch, waitSince := k }) ∧
        (op = .mma ∨ op = .rsfill → ∀ r, s.resOf lo = some r → lo ≠ 0 → ∃ r', s'.resOf lo = some r' ∧ r'.inUse = r.inUse + 1))) ∧
  (∀ (s : State) (core id : Nat) (e : MxEntry) (b : Block), (s.core core).mxq.find? (fun x => x.id = id) = some e → e.started = true →
    s.block? (tkBk e.tk) = some b → (s.core core).scratch.wf = true → (s.core core).matrixFenced = false →
    let byte (o : Nat) : Byte := Memory.read (s.core core).scratch (b.spbase + e.off + o)
    let word (z : State) (tile row col : Nat) : Word := Sparse.getD (z.core core).tiles (tile * 65536 + row * 512 + col) 0
    let free : Prop := e.racing = false
    let free2 : Prop := e.racing = false ∧ e.racing2 = false
    let overruled (a : Nat) : Prop := ∃ w ∈ s.cycleWrites, precedence 3 (s.reqRank e.tk) < w.rank ∧ w.space = 1 + core ∧ w.at_ ≤ a ∧
      a < w.at_ + w.n
    let ends (s' : State) : Prop := (∀ x ∈ (s'.core core).mxq, x.id ≠ id) ∧
      ∀ t, s.thread? e.tk = some t → ∃ l, (∀ x ∈ l, x.2.2 = 0) ∧
        (∀ k, t.wait = .matrixEntry id k → s'.thread? e.tk =
          some { t.retireTo (t.pc + 12) with wait := .mates k, flagsDue := t.flagsDue ++ l }) ∧
        ((∀ k, t.wait ≠ .matrixEntry id k) → s'.thread? e.tk = some { t with flagsDue := t.flagsDue ++ l })
    let rest (s' : State) : Prop := ∀ k row col, col < 512 → row < 128 → k ≠ e.tile → word s' k row col = word s k row col
    (∀ r d, e.op = .rsfill → e.at_ = 0 → hCore e.handle = core → e.handle ≠ 0 → s.resOf e.handle = some r → r.state = .filling →
      e.slot < 32 → r.base ≤ e.slot → e.slot < r.base + r.cnt → s.block? (bkOf (b.scrCopy e.bar).1 (b.scrCopy e.bar).2.1) = some d →
      (s.core (b.scrCopy e.bar).1).scratch.wf = true →
      let c := (b.scrCopy e.bar).1
      let o := d.spbase + (b.scrCopy e.bar).2.2
      let filled := r.filled ||| (1#32 <<< (e.slot - r.base))
      ∃ s' r', exec (.rsfillComplete core id) s = .next s' ∧ (∀ x ∈ (s'.core core).mxq, x.id ≠ id) ∧
        ((s'.core core).slot e.slot).tag = e.fmt % 32 ∧
        (∀ i, i < 65536 → Sparse.getD ((s'.core core).slot e.slot).codes i 0 = (byte i).toNat) ∧
        (∀ n, n < 512 → Sparse.getD ((s'.core core).slot e.slot).scales n 0 = (byte (65536 + n)).toNat) ∧
        s'.resOf e.handle = some r' ∧ r'.filled = filled ∧ r'.state = (if popCount filled.toNat 32 = r.cnt then .valid else .filling) ∧
        OnlyScratch s s' c o 16 ∧
        s'.objFields c o = (let x := s.objFields c o
          (if x.err then x else { x with pending := (x.pending + 2 ^ 40 - 66048) % 2 ^ 40 }).complete)) ∧
    (e.op = .accz → e.first + e.rows ≤ 128 → ∃ s', Leaves (.accumulatorEntryComplete core id) s s' ∧ ends s' ∧ rest s' ∧
      ∀ row col, row < 128 → col < 512 → word s' e.tile row col =
        if e.first ≤ row ∧ row < e.first + e.rows then 0 else word s e.tile row col) ∧
    (e.op = .accmov → free2 → ∃ s', Leaves (.accumulatorEntryComplete core id) s s' ∧ ends s' ∧ rest s' ∧
      ∀ row col, row < 128 → col < 512 → word s' e.tile row col = word s e.tile2 row col) ∧
    (e.op = .accadd → free2 → ∃ s', Leaves (.accumulatorEntryComplete core id) s s' ∧ ends s' ∧ rest s' ∧
      ∀ row col, row < 128 → col < 512 →
        let x := word s e.tile row col
        let y := word s e.tile2 row col
        let z := word s' e.tile row col
        (fp32.nan x.toNat = true ∨ fp32.nan y.toNat = true → z = 0x7FC00000) ∧
        (fp32.finite x.toNat = true → fp32.finite y.toNat = true →
          let v := fp32.rat x.toNat + fp32.rat y.toNat
          (-fp32.top ≤ v → v ≤ fp32.top → RoundsOn fp32.finite fp32.rat .rn v z.toNat) ∧
          (fp32.top < v → z = 0x7F7FFFFF) ∧ (v < -fp32.top → z = 0xFF7FFFFF))) ∧
    (e.op = .accst → free → e.at_ = 0 → e.fmt = 0x20 → e.first + e.rows ≤ 128 → ∃ s', exec (.accumulatorEntryComplete core id) s = .next s' ∧
      ends s' ∧ (s'.core core).tiles = (s.core core).tiles ∧ OnlyScratch s s' core (b.spbase + e.off) (e.rows * 2048) ∧
      ∀ row col j, row < e.rows → col < 512 → j < 4 →
        let a := b.spbase + e.off + (row * 512 + col) * 4 + j
        (¬overruled a → Memory.read (s'.core core).scratch a = (word s e.tile (e.first + row) col).extractLsb' (8 * j) 8) ∧
        (overruled a → Memory.read (s'.core core).scratch a = Memory.read (s.core core).scratch a)) ∧
    (e.op ≠ .mma → e.op ≠ .rsfill → ∃ s', exec (.accumulatorEntryComplete core id) s = .next s' ∧ ends s') ∧
    (e.op = .accld → free → e.at_ = 0 → e.fmt = 0x20 → e.first + e.rows ≤ 128 → ∃ s', Leaves (.accumulatorEntryComplete core id) s s' ∧
      ends s' ∧ rest s' ∧ ∀ row col, row < e.rows → col < 512 →
        let o := (row * 512 + col) * 4
        let x : Word := byte (o + 3) ++ byte (o + 2) ++ byte (o + 1) ++ byte o
        fp32.nan x.toNat = false → word s' e.tile (e.first + row) col = x))

/-- R237, R242. RSALLOC takes the lowest run of free slots on its core for a residency that is FILLING, unpinned and owned by the thread's
ASID, writes its handle to v[D] and advances the generation; with no run to be had, v[D] is 0 and nothing else of the core changes. It
never takes a pinned residency or one in use. A count outside 1 to 32 takes cause 0x01.
R244, R247, R249, R250, R417, R418. RSSRC registers the granules of a range, RSPIN pins within the quota, RSUNPIN unpins, RSREVOKE ends
the handle and frees the slots at once if nobody uses them, and RSQUERY gives the word of Table 11.10 through a window. The walks of
RSSRC's pages are made first (log 9), and change no byte. A handle that is
not live takes cause 0x0E (RSREVOKE does nothing), an EVICTED one cannot be pinned (0x0D), nor can one beyond its quota (0x0F). -/
def Obligations.ResidencyAllocationAndUse : Prop :=
  (∀ (f : Fields) (s : State) (tk : Nat) (t : Thread) (b : Block), Executes .rsalloc f s tk t b →
    let n := opndA .rsalloc t b f
    let c := s.core b.core
    let free (j : Nat) : Prop := ∀ r ∈ c.dir, r.state ≠ .evicted → ¬(r.base ≤ j ∧ j < r.base + r.cnt)
    let gives (x : Nat) (c' : Core) : Prop := ∃ s' u, Leaves (.rsalloc f) s s' ∧ s'.thread? tk = some u ∧ WentOn t u (t.pc + 12) ∧
      WroteRegs t u f.d.toNat 1 x ∧ s'.core b.core = c' ∧ (∀ k, k ≠ b.core → s'.core k = s.core k) ∧
      (∀ k, k ≠ tk → s'.thread? k = s.thread? k) ∧ s'.blocks = s.blocks
    (n = 0 ∨ 32 < n → Leaves (.rsalloc f) s (s.takeTrap tk ⟨0x01, n, 0xA4 * 256 + 7 * 16 + 7⟩ s.cur.id false)) ∧
    (∀ base, 0 < n → base + n ≤ 32 → (∀ i, i < n → free (base + i)) → (∀ k, k < base → ∃ i, i < n ∧ ¬free (k + i)) →
      (c.dir.filter (·.live)).length < 64 →
      gives (b.core * 2 ^ 26 + base * 2 ^ 21 + (n - 1) * 2 ^ 16 + c.allocCtr) { c with
        dir := c.dir ++ [{ base := base, cnt := n, gen := c.allocCtr, owner := b.asid, state := .filling, filled := 0, since := 0
                           pinned := false, live := true, src := none, granules := [], inUse := 0, stamp := c.stamp }]
        stamp := c.stamp + 1, allocCtr := if c.allocCtr = 0xFFFF then 1 else c.allocCtr + 1
        slots := c.slots.filter (fun x => !(decide (base ≤ x.1 ∧ x.1 < base + n))) }) ∧
    (0 < n → n ≤ 32 → (∀ k, k + n ≤ 32 → ∃ i, i < n ∧ ¬free (k + i)) →
      (∀ r ∈ c.dir, r.state ≠ .evicted → r.live = false ∨ r.pinned = true ∨ r.inUse ≠ 0) → gives 0 c) ∧
    (0 < n → n ≤ 32 → (c.dir.map (·.stamp)).Nodup → ∃ s', exec (.rsalloc f) s = .next s' ∧
      ∀ r ∈ c.dir, r.state ≠ .evicted → r.pinned = true ∨ r.inUse ≠ 0 → r ∈ (s'.core b.core).dir)) ∧
  (∀ (f : Fields) (s : State) (tk : Nat) (t : Thread) (b : Block),
    let h (op : Op) := opndB op t b f
    let core (op : Op) := h op / 2 ^ 26 % 64
    let next := t.retireTo (t.pc + 12)
    let mine (op : Op) (r : Residency) : Prop := Executes op f s tk t b ∧ s.resOf (h op) = some r ∧ r.owner = b.asid
    let from_ (z : State) (i : Instr) (op : Op) (r' : Residency) : Prop := ∃ s', exec i s = .next s' ∧ SameBytes z s' ∧
      s'.thread? tk = some next ∧ s'.resOf (h op) = some r' ∧ (∀ k, k ≠ core op → s'.core k = z.core k) ∧ (∀ k, k ≠ tk → s'.thread? k = s.thread? k) ∧
      (∀ r ∈ (s.core (core op)).dir, r.handle (core op) ≠ h op → r ∈ (s'.core (core op)).dir)
    let goes := from_ s
    let traps (i : Instr) (x : TrapInfo) : Prop := Leaves i s (s.takeTrap tk x s.cur.id false)
    let ea := opndA .rssrc t b f
    let len := opndC .rssrc t b f
    let c := s.core b.core
    (∀ r, mine .rssrc r →
      let s1 := if len = 0 then s
        else s.walkEach b.core b.asid (((rangePages ea len).map (· * 65536)).filter (fun va => decide (va < 2 ^ 56)))
      (s.memOk → s.linesOk → SameBytes s s1) ∧
      (∀ x, s1.srcCheck t b ea len = some x → exec (.rssrc f) s = .next (s1.takeTrap tk x s.cur.id false)) ∧
      (s1.srcCheck t b ea len = none → from_ s1 (.rssrc f) .rssrc
        { r with src := if len = 0 then none else some (ea, len), granules := s1.srcGranules b ea len })) ∧
    (∀ r, mine .rspin r → core .rspin = b.core → r.state ≠ .evicted → (r.pinned = true ∨ c.pinnedBy b.asid + r.cnt ≤ c.quotaOf b.asid) →
      goes (.rspin f) .rspin { r with pinned := true }) ∧
    (∀ r, mine .rspin r → core .rspin = b.core → r.state = .evicted → ∃ x, x.cause = 0x0D ∧ x.tval = h .rspin ∧ traps (.rspin f) x) ∧
    (∀ r, mine .rspin r → core .rspin = b.core → r.state ≠ .evicted → r.pinned = false →
      c.quotaOf b.asid < c.pinnedBy b.asid + r.cnt → ∃ x, x.cause = 0x0F ∧ x.tval = h .rspin ∧ traps (.rspin f) x) ∧
    (∀ r, mine .rsunpin r → core .rsunpin = b.core → goes (.rsunpin f) .rsunpin { r with pinned := false }) ∧
    (∀ op i, (op, i) ∈ [(Op.rssrc, Instr.rssrc f), (.rspin, .rspin f), (.rsunpin, .rsunpin f)] → Executes op f s tk t b →
      s.resOf (h op) = none → ∃ x, x.cause = 0x0E ∧ x.tval = h op ∧ traps i x) ∧
    (Executes .rsrevoke f s tk t b → s.resOf (h .rsrevoke) = none → Leaves (.rsrevoke f) s (s.setThread tk next)) ∧
    (∀ r, mine .rsrevoke r → ∃ s', Leaves (.rsrevoke f) s s' ∧ s'.thread? tk = some next ∧ s'.resOf (h .rsrevoke) = none ∧
      (∀ k, k ≠ core .rsrevoke → s'.core k = s.core k) ∧
      ∀ x ∈ (s'.core (core .rsrevoke)).dir, x.handle (core .rsrevoke) = h .rsrevoke → x.inUse ≠ 0) ∧
    (Executes .rsquery f s tk t b →
      OpensKnown (.rsquery f) .rsquery f s tk t b 1 (match s.resOf (h .rsquery) with
        | none => 4
        | some r =>
          let src := if r.src.isSome then 16 else 0
          if r.state = .evicted then 3 + src
          else ((s.core (core .rsquery)).tilesOf r).length * 2 ^ 16 + popCount r.since.toNat 32 * 2 ^ 8 + src +
            (if r.pinned then 8 else 0) + (match r.state with | .filling => 0 | .valid => 1 | .stale => 2 | .evicted => 3)) 0))

/-- R88 to R90. A K step of finite values cuts every term to a 64-bit window below the largest, sums the terms exactly and rounds the sum
once to the nearest FP32 number, with saturation in place of infinity; an empty sum keeps the accumulator and a cancelled one is +0. A NaN
among the terms, or infinities of both signs, give the canonical NaN, and one infinity stands.
R81, R82, R88, R235, R236, R243, Tables 11.1 and 11.2. The terms of a K step are the accumulator and 128 exact products of four factors, the
A element and the row scale with the B element and the column scale; a zero that meets an infinity gives NaN and raises INV. The elements
of B are the codes of a slot in the format of its tag, those of A the codes of a row of the operand in scratchpad; a 16-bit operand has scale 1.
R240, R243, R246, R251, R252, R256, R302, R420. MMA_START gives the free array to the earliest MMA that may start. MMA_K_STEP then
begins its next K step with the cycles of R252, unless the MMA stops there for pre-emption or in TS7, waits for an earlier fill, or, before
its first one, is found stale without .staleok and is dropped; the slots that no earlier fill is to write read as Empty where their filled
bit is clear. A K step that has begun is made over its tile's rows, each element a KStep, leaves the other rows alone and is counted; after
the last one the seam's declared count is consumed and its phase flips. That every A row is read as its K step ends, and the tiles are
those of the residency at that step, is log 66. -/
def Obligations.KStepsAndTheArray : Prop :=
  ((∀ (c : Word) (ps : List FV) (pre : FlagWord),
    let xs := ofIeee fp32 c.toNat :: ps
    let y := kSum c ps pre
    (xs.any FV.isNaN = true → y = (0x7FC00000, fNAN ||| pre)) ∧
    (xs.any FV.isNaN = false →
      (.inf false ∈ xs → .inf true ∈ xs → y = (0x7FC00000, fINV ||| fNAN ||| pre)) ∧
      (.inf false ∈ xs → .inf true ∉ xs → y = (0x7F800000, pre)) ∧
      (.inf true ∈ xs → .inf false ∉ xs → y = (0xFF800000, pre)))) ∧
  ∀ (c : Word) (ps : List FV), fp32.finite c.toNat = true →
    (∀ p ∈ ps, ∃ n m e, p = .zero n ∨ (p = .fin n m e ∧ 0 < m)) →
    let xs := fp32.rat c.toNat :: ps.map FV.rat
    let y := kSum c ps 0
    ((∀ x ∈ xs, x = 0) → y = (c, 0)) ∧
    ∀ L : Int, (∃ x ∈ xs, (2 : Rat) ^ L ≤ x ∨ (2 : Rat) ^ L ≤ -x) →
      (∀ x ∈ xs, x < (2 : Rat) ^ (L + 1) ∧ -x < (2 : Rat) ^ (L + 1)) →
      let q : Rat := (2 : Rat) ^ (L - 63)
      let n : Int := (xs.map (fun x => if 0 ≤ x then (x / q).floor else -((-x) / q).floor)).sum
      (n = 0 → y = (0, 0)) ∧
      (n ≠ 0 → -fp32.top ≤ (n : Rat) * q → (n : Rat) * q ≤ fp32.top →
        RoundsOn fp32.finite fp32.rat .rn ((n : Rat) * q) y.1.toNat ∧ y.2 = if fp32.rat y.1.toNat = 0 then fUNF else 0) ∧
      (fp32.top < (n : Rat) * q → y.1 = 0x7F7FFFFF) ∧ ((n : Rat) * q < -fp32.top → y.1 = 0xFF7FFFFF)) ∧
  ((∀ (c : Word) (as bs sbs : List FV) (sa : FV), as.length = 128 → bs.length = 128 → sbs.length = 128 →
    let fs (j : Nat) : List FV := [as.getD j (.zero false), bs.getD j (.zero false), sa, sbs.getD j (.zero false)]
    let clash (j : Nat) : Prop := (fs j).any FV.isZero = true ∧ (fs j).any FV.isInf = true
    let number (x : FV) : Prop := (∃ n, x = .zero n) ∨ ∃ n m e, x = .fin n m e ∧ 0 < m
    ∃ ps w, kStep c as bs sa sbs = kSum c ps w ∧ ps.length = 128 ∧
      (w = fINV ∧ (∃ j, j < 128 ∧ clash j) ∨ w = 0 ∧ ∀ j, j < 128 → ¬clash j) ∧
      ∀ j, j < 128 →
        let p := ps.getD j (.zero false)
        (clash j ∨ (fs j).any FV.isNaN = true → p.isNaN = true) ∧
        (¬clash j → (fs j).any FV.isNaN = false → (fs j).any FV.isInf = true →
          p = .inf ((fs j).foldl (fun n x => n != x.sign) false)) ∧
        ((∀ x ∈ fs j, number x) → number p ∧ p.rat = ((fs j).map FV.rat).prod)) ∧
  (∀ (x : Slot) (n : Nat), (x.codes.map (·.1)).Nodup → n < 512 → ∃ w sb, x.columns[n]? = some (w, sb) ∧ w.length = 128 ∧
    (x.tag < 28 → sb = b8Value b8Scale (Sparse.getD x.scales n 0)) ∧ (28 ≤ x.tag → sb = .fin false 1 0) ∧
    ∀ k, k < 128 →
      let code := Sparse.getD x.codes (512 * k + n) 0
      (x.tag < 28 → w[k]? = some (b8Value x.tag code)) ∧ (x.tag = 0x1D → w[k]? = some (ofIeee bf16 code)) ∧
      (x.tag = 0x1E → w[k]? = some (ofIeee fp16 code))) ∧
  ∀ (s : State) (b : Block) (e : MxEntry) (row k : Nat), (s.core b.core).scratch.wf = true → k < 128 →
    let byte (o : Nat) : Nat := (Memory.read (s.core b.core).scratch (b.spbase + e.off + o)).toNat
    let half (o : Nat) : Nat := byte o + 256 * byte (o + 1)
    let x := s.aRow b e row
    let at8 := e.p * (128 * (e.rows + 1))
    let at16 := e.p * (256 * e.rows) + 256 * row + 2 * k
    (e.at_ = 0 → x.1[k]? = some (b8Value (e.fmt % 32) (byte (at8 + 128 * row + k))) ∧
      x.2.1 = b8Value b8Scale (byte (at8 + 128 * e.rows + row))) ∧
    (e.at_ = 1 → x.1[k]? = some (ofIeee bf16 (half at16)) ∧ x.2.1 = .fin false 1 0) ∧
    (e.at_ = 2 → x.1[k]? = some (ofIeee fp16 (half at16)) ∧ x.2.1 = .fin false 1 0)) ∧
  (∀ (s : State) (core : Nat),
    (∀ e, s.nextMma core = some e →
      ∃ s', Leaves (.mmaStart core) s s' ∧ (s'.core core).array = some e.id ∧ s'.threads = s.threads ∧ s'.blocks = s.blocks ∧
        (s'.core core).tiles = (s.core core).tiles ∧ (s'.core core).mxq.map (·.id) = (s.core core).mxq.map (·.id)) ∧
    (s.nextMma core = none → Leaves (.mmaStart core) s s) ∧
    (∀ e b r, s.onArray core = some (e, b, r) → e.op = .mma → e.stepping = false → ((s.core core).mxq.map (·.id)).Nodup →
      let stops : Prop := b.stopping = true ∨ (s.site (core / 4)).applied = 7
      let waits := (s.core core).stepWaits e r
      let stale : Prop := e.tested = false ∧ r.state = .stale ∧ e.staleOk = false
      let e1 := (s.core core).asRead e r
      let goes (P : State → Prop) : Prop := ∃ s', Leaves (.mmaKStep core true) s s' ∧ (s'.core core).tiles = (s.core core).tiles ∧ P s'
      let has (s' : State) (P : MxEntry → Prop) : Prop := ∃ y ∈ (s'.core core).mxq, y.id = e.id ∧ y.p = e.p ∧ P y
      (stops → goes (fun s' => (s'.core core).array = none ∧ has s' (fun y => y.stepping = false ∧ y.tested = e.tested))) ∧
      (¬stops → waits = true → goes (fun s' => (s'.core core).array = some e.id ∧ s'.threads = s.threads ∧
        has s' (fun y => y.stepping = false ∧ y.tested = e.tested))) ∧
      (¬stops → waits = false → stale → ∀ t, s.thread? e.tk = some t → t.exited = false → goes (fun s' =>
        (∀ x ∈ (s'.core core).mxq, x.id ≠ e.id) ∧ (s'.core core).array = none ∧ ∃ u, s'.thread? e.tk = some u ∧
          ∃ x ∈ u.reports, x.cause = 0x0C ∧ x.tinfo = e.handle ∧ x.tval = e.tileName * 2 ^ 56 + e.pc.toNat)) ∧
      (¬stops → waits = false → ¬stale → goes (fun s' => (s'.core core).array = some e.id ∧ s'.threads = s.threads ∧
        has s' (fun y => y.stepping = true ∧ y.tested = true ∧ y.emp = e1.emp ∧
          y.due = s.now core + e.rows * (if (s.core core).stepWide e1 r then 4 else 1) *
            (if (s.site (core / 4)).applied = 6 then 2 else 1)))) ∧
      (e.tested = false → r.base + r.cnt ≤ 32 → ∀ k, k < r.cnt → e1.emp.getLsbD (r.base + k) =
        (!r.filled.getLsbD k && !((s.core core).fillsAhead e).contains (r.base + k)))) ∧
    ∀ e b r j, s.onArray core = some (e, b, r) → ((s.core core).tilesOf r)[e.p]? = some j → e.stepping = true → e.tested = true →
      let x := (s.core core).slot j
      let empty := x.tag = 0x1C ∨ e.emp.getLsbD j = true ∨
        ((x.tag = 0x1D ∨ x.tag = 0x1E) ∧ ((s.core core).slot (j + 1)).tag = 0x1F ∧ e.emp.getLsbD (j + 1) = true)
      ∃ s', Leaves (.mmaKStep core true) s s' ∧
        (∀ row col, row < e.rows → col < 512 → ¬empty →
          ∃ w sb, x.columns[col]? = some (w, sb) ∧
          Sparse.getD (s'.core core).tiles (e.tile * 65536 + row * 512 + col) 0 =
            (kStep (Sparse.getD (s.core core).tiles (e.tile * 65536 + row * 512 + col) 0) (s.aRow b e row).1 w (s.aRow b e row).2.1
              (List.replicate 128 sb)).1) ∧
        (∀ k, ¬(e.tile * 65536 ≤ k ∧ k < e.tile * 65536 + e.rows * 512) ∨ empty →
          Sparse.getD (s'.core core).tiles k 0 = Sparse.getD (s.core core).tiles k 0) ∧
        (e.p + 1 < ((s.core core).tilesOf r).length → ∃ e' ∈ (s'.core core).mxq, e'.id = e.id ∧ e'.p = e.p + 1) ∧
        (((s.core core).tilesOf r).length ≤ e.p + 1 → (s'.core core).array = none ∧ (∀ x ∈ (s'.core core).mxq, x.id ≠ e.id) ∧
          ∃ c, s'.block? (tkBk e.tk) = some c ∧ c.seam e.seam =
            { b.seam e.seam with sig := (b.seam e.seam).sig - (b.seam e.seam).declared, phase := !(b.seam e.seam).phase }))

/-! ### Engines (chapters 12 and 24) -/

/-- R258, R259, R275. PUSH makes a command of sixteen registers, v[A] first, and puts it behind its queue with p[D] = 0; with the queue
full, or while a restored block of the core still has commands for it, it sends nothing and p[D] is 1. -/
def Obligations.Push : Prop :=
  ∀ (f : Fields) (s : State) (tk : Nat) (t : Thread) (b : Block), Executes .push f s tk t b →
    let qn := f.low4
    let q (s : State) : List Cmd := Sparse.getD (s.core b.core).queues qn []
    let waits := s.blocks.any (fun x => x.2.core == b.core && x.2.savedCmds.any (fun c => c.qn == qn))
    let goes (s' : State) (x : Bool) : Prop := ∃ u, Leaves (.push f) s s' ∧ s'.thread? tk = some u ∧ WentOn t u (t.pc + 12) ∧
      WrotePred t u (f.d.toNat % 8) x ∧ (∀ k, k ≠ tk → s'.thread? k = s.thread? k) ∧ s'.blocks = s.blocks
    ((q s).length < 32 → waits = false → ∃ s' c, goes s' false ∧ q s' = q s ++ [c] ∧ c.tk = tk ∧ c.qn = qn ∧ c.asid = b.asid ∧
      c.home = flagHome t ∧ c.id = s.nextId ∧ c.bytes.length = 64 ∧
      ∀ i, i < 64 → c.bytes.getD i 0 = (t.reg (f.a.idx.toNat + i / 4)).extractLsb' (8 * (i % 4)) 8) ∧
    (32 ≤ (q s).length ∨ waits = true → (s.core b.core).det = false → ∃ s', goes s' true ∧ s'.cores = s.cores)

/-- R263, R266 to R269. A copy engine takes up the head of its queue and starts it: CP_MOVE, CP_LOAD and CP_STORE without a conversion
(equal raw formats, no layout) hand every byte of every row, in order, to pieces at its destination; until those land, memory is
unchanged. That all sources are read in the step in which the copy starts is log 48.
R82, R83, R86, R87, R268. How a copy converts a block: equal binary8 formats keep their codes; otherwise every finite element is decoded exactly
and rounded once to the nearest number of the destination format; a scaled destination takes the least power of two between 2^−63 and
2^62 by which its largest magnitude, divided, stays within the format. -/
def Obligations.CopiesAndConversions : Prop :=
  (∀ (s : State) (core e : Nat) (c : Cmd) (b : Block), e < 2 → s.memOk → s.linesOk → (s.core core).copyQueues e = [e] →
    s.headCmd core e = some c →
    let x := c.copy
    let rows := List.range x.rows
    let cells (n : Nat) (g : Nat → Nat → Nat × Byte) : List (Nat × Byte) := rows.flatMap (fun i => (List.range n).map (g i))
    let scratch (p : Piece) : List (Nat × Byte) := p.bytes.zipIdx.map (fun y => (p.addr + y.2, y.1))
    let dram (p : Piece) : List (Nat × Byte) := match p.place with
      | .dram pa _ => p.bytes.zipIdx.map (fun y => (pa + y.2, y.1))
      | _ => []
    let own (a : Nat) : Byte := Memory.read (s.core b.core).scratch (b.spbase + a)
    let plain : Prop := x.sfmt = x.dfmt ∧ (x.sfmt = 0x40 ∨ x.sfmt = 0x43) ∧ x.lay = 0
    let n := x.elems * storeSize x.sfmt
    (∀ g, Taken s c b 3 (copyCheck b c) → x.spofs + x.rows * x.sstr + x.elems ≤ 2 ^ 31 → g = c.num 8 4 →
      g + x.rows * x.gstr + x.elems ≤ 2 ^ 31 → (s.core b.core).scratch.wf = true → s.block? (bkOf b.core b.bslot) = some b →
      ∃ s' r, Leaves (.cpMove core e) s s' ∧ Started s' core e c (x.rows * x.elems) r ∧
        r.pieces.flatMap scratch = cells x.elems (fun i j => (x.spofs + i * x.sstr + j, own (g + i * x.gstr + j))) ∧
        ∀ p ∈ r.pieces, p.place = .scr [(b.core, b.bslot, p.addr)]) ∧
    (∀ pa : Nat → Nat → Nat, Taken s c b 1 (copyCheck b c) → plain → x.spofs + x.rows * x.sstr + n ≤ 2 ^ 31 →
      (∀ i, i < x.rows → s.Maps core c.asid false false (x.gaddr + i * x.gstr) n (pa i)) →
      ∃ s' r, Leaves (.cpLoad core e) s s' ∧ Started s' core e c (x.rows * n) r ∧ r.flags = 0 ∧
        r.pieces.flatMap scratch = cells n (fun i j => (x.spofs + i * x.sstr + j, s.homeByte (pa i j))) ∧
        ∀ p ∈ r.pieces, p.place = .scr [(b.core, b.bslot, p.addr)]) ∧
    (∀ pa : Nat → Nat → Nat, Taken s c b 2 (copyCheck b c) → plain → x.spofs + x.rows * x.sstr + n ≤ 2 ^ 31 →
      (s.core b.core).scratch.wf = true → s.block? (bkOf b.core b.bslot) = some b →
      (∀ i, i < x.rows → s.Maps core c.asid false true (x.gaddr + i * x.gstr) n (pa i)) →
      ∃ s' r, Leaves (.cpStore core e) s s' ∧ Started s' core e c (x.rows * n) r ∧ r.flags = 0 ∧
        r.pieces.flatMap dram = cells n (fun i j => (pa i j, own (x.spofs + i * x.sstr + j))))) ∧
  ((∀ (sf df : Nat) (es : List (List PByte)), isPlain8 sf = true → sf = df → (∀ e ∈ es, e.length = 1) →
    ((convBlock sf df false es none).1.map (·.1)) = es.flatten.map (·.1)) ∧
  (∀ (sf df : Nat) (x : Nat), sf = 0x40 → df = 0x41 ∨ df = 0x42 → x < 2 ^ 32 → fp32.finite x = true →
    let d := if df = 0x41 then bf16 else fp16
    let y := leNat ((convBlock sf df false [(leBytes 4 x).map (fun b => (b, none))] none).1.map (·.1))
    Rounds d .rn (fp32.rat x) y) ∧
  (∀ (sf df : Nat) (x : Nat), isPlain8 sf = true → df = 0x40 → x < 256 → b8Finite sf x = true →
    fp32.rat (leNat ((convBlock sf df false [[(BitVec.ofNat 8 x, none)]] none).1.map (·.1))) = b8Rat sf x) ∧
  ∀ (c : Nat) (vs : List FV), isPlain8 c = true → (∀ v ∈ vs, ∃ n m e, v = .zero n ∨ (v = .fin n m e ∧ 0 < m)) →
    let r := encodeScaled c vs
    let k : Int := (r.2.1 : Int) - 0x40
    let fits (j : Int) : Prop := ∀ v ∈ vs, ∃ y, b8Finite c y = true ∧ v.rat ^ 2 ≤ (b8Rat c y * (2 : Rat) ^ j) ^ 2
    r.1.length = vs.length ∧ ((∀ v ∈ vs, v.rat = 0) → k = 0) ∧
    ((∃ v ∈ vs, v.rat ≠ 0) → -63 ≤ k ∧ k ≤ 62 ∧ (k < 62 → fits k) ∧ (-63 < k → ¬fits (k - 1))) ∧
    ∀ (i : Nat) (v : FV) (y : Nat), vs[i]? = some v → r.1[i]? = some y → b8Rounds c .rn (v.rat / (2 : Rat) ^ k) y)

/-- R199, R200, R264, R269, R429, R430, R435. ENGINE_LANDING writes the next piece of a running command and lands its bytes on the barrier object;
ENGINE_COMMAND_COMPLETE ends a command whose bytes have all landed and counts its successors down, and one that failed marks its
barrier object in error. No other byte is written; where a write of higher precedence has come in the cycle, its bytes stay (R97). -/
def Obligations.EngineLandings : Prop :=
  ∀ (s : State) (id : Nat) (r : Running) (c o : Nat), s.running? id = some r → s.barAt r.cmd = some (c, o) →
    r ∈ (s.site (r.core / 4)).running → (s.core c).scratch.wf = true →
    let old := s.objFields c o
    let landed (n : Nat) : ObjFields :=
      (if old.err then old else { old with pending := (old.pending + 2 ^ 40 - n % 2 ^ 40) % 2 ^ 40 }).complete
    (∀ p rest, r.pieces = p :: rest → p.place = .scr [] → r.sawPoison = false → ∃ s', exec (.engineLanding id) s = .next s' ∧
      OnlyScratch s s' c o 16 ∧ s'.objFields c o = landed p.land ∧
      { r with pieces := rest, flags := 0 } ∈ (s'.site (r.core / 4)).running ∧ s'.threads = s.threads) ∧
    (∀ p rest k j d, r.pieces = p :: rest → p.place = .scr [(k, j)] → r.sawPoison = false → p.poison = [] →
      s.copyBlock r.cmd.tk (k, j) = some d → (s.core k).scratch.wf = true →
      let at_ := d.spbase + j.2
      (k ≠ c ∨ at_ + p.bytes.length ≤ o ∨ o + 16 ≤ at_) → ∃ s', exec (.engineLanding id) s = .next s' ∧
        (∀ pa, s'.homeByte pa = s.homeByte pa) ∧ s'.objFields c o = landed p.land ∧
        (∀ i, i < p.bytes.length →
          let later : Prop := ∃ w ∈ s.cycleWrites, engRank r.core r.engine < w.rank ∧ w.space = 1 + k ∧ w.at_ ≤ at_ + i ∧ at_ + i < w.at_ + w.n
          (¬later → Memory.read (s'.core k).scratch (at_ + i) = p.bytes.getD i 0) ∧
          (later → Memory.read (s'.core k).scratch (at_ + i) = Memory.read (s.core k).scratch (at_ + i))) ∧
        ∀ k' i, ¬(k' = c ∧ o ≤ i ∧ i < o + 16) → ¬(k' = k ∧ at_ ≤ i ∧ i < at_ + p.bytes.length) →
          Memory.read (s'.core k').scratch i = Memory.read (s.core k').scratch i) ∧
    (r.pieces = [] → r.failed = none → r.sawPoison = false → ∃ s', Leaves (.engineCommandComplete id) s s' ∧
      (∀ y ∈ (s'.site (r.core / 4)).running, y.id ≠ id) ∧ s'.threads = s.threads ∧
      ∀ b m n, s.block? (tkBk r.cmd.tk) = some b → r.cmd.succ = some m → n < 64 → (b.node n).held = none → (∀ j, (b.node j).held = none) →
        ∃ d, s'.block? (tkBk r.cmd.tk) = some d ∧ (d.node n).count = (b.node n).count - (if m.getLsbD n then 1 else 0)) ∧
    (∀ sub byte w, r.pieces = [] → r.failed = some (sub, byte, w) → r.cmd.ere = false → r.engine < 2 →
      ∃ s', exec (.engineCommandComplete id) s = .next s' ∧ OnlyScratch s s' c o 16 ∧
        s'.objFields c o = { old with err := true, pending := 0 }.complete ∧
        (∀ y ∈ (s'.site (r.core / 4)).running, y.id ≠ id) ∧ s'.threads = s.threads)

/-- R270 to R272. A near-memory unit that is free takes up the next call and runs it on words of its own site's DRAM, in ascending order
with one rounding for each operation: FILL stores a word n times, AXPY adds alpha × x[i] to y[i], SUM-REDUCE stores the sum in order,
SCATTER-ADD and GATHER go by an index list, RE-ENCODE decodes and encodes blocks of 128. No other byte changes. No write of higher
precedence has come in the cycle (R97). That all accesses of a call are made in the step in which it starts is log 48.
R271, R273, R274, R438. A customer routine that is installed runs when its call is taken up, with the word writes, the landed bytes and
the flags that its firmware makes (they come with the event, log 50; no write of higher precedence has come in the cycle, R97); the attention decode engine starts a command to land 4 bytes for every
output and 8 for every (m, l) pair, and leaves memory unchanged until they land. -/
def Obligations.SiteEngineCalls : Prop :=
  (∀ (s : State) (site u core : Nat) (c : Cmd) (b : Block), site < 16 → u < 4 → s.memOk → s.linesOk → (s.site site).fenced = false →
    ((s.site site).unit u).fenced = false →
    (∀ r ∈ (s.site site).running, r.engine ≠ 2 + u) →
    s.siteHead site u (((List.range 4).filter (fun v => (s.site site).unitFor v == some u)).map (· + 2)) = some (core, c) →
    Taken s c b 0x10 (s.nmuCheck b c) → (∀ w ∈ s.cycleWrites, w.space = 0 → w.rank ≤ engRank core (2 + u)) →
    let arg (i : Nat) : Nat := c.num (12 + 8 * i) 8
    let word (pa : Nat → Nat) (i : Nat) : Nat := leNat ((List.range 4).map (fun j => s.homeByte (pa (4 * i + j))))
    let add (x y : Nat) : Nat := (arAdd fp32 .rn (ofIeee fp32 x) (ofIeee fp32 y)).code
    let mul (x y : Nat) : Nat := (arMul fp32 .rn (ofIeee fp32 x) (ofIeee fp32 y)).code
    let maps (w : Bool) (va n : Nat) (pa : Nat → Nat) : Prop := s.Maps core c.asid true w va n pa
    let apart (n : Nat) (p : Nat → Nat) (m : Nat) (q : Nat → Nat) : Prop := ∀ i j, i < n → j < m → p i ≠ q j
    let once (n : Nat) (p : Nat → Nat) : Prop := ∀ i j, i < n → j < n → p i = p j → i = j
    let makes (i : Instr) (landed n : Nat) (p : Nat → Nat) (g : Nat → Nat) : Prop :=
      ∃ s' r, exec i s = .next s' ∧ Started s' core (2 + u) c landed r ∧
        (∀ k, k < n → s'.homeByte (p k) = BitVec.ofNat 8 (g (k / 4) / 256 ^ (k % 4))) ∧
        (∀ a, (∀ k, k < n → p k ≠ a) → s'.homeByte a = s.homeByte a) ∧
        ∀ k o, Memory.read (s'.core k).scratch o = Memory.read (s.core k).scratch o
    (∀ p n, c.entry = 0 → n = arg 1 → maps true (arg 0) (4 * n) p → once (4 * n) p →
      makes (.nmuFill site u) (4 * n) (4 * n) p (fun _ => c.num 28 4)) ∧
    (∀ py px n, c.entry = 1 → n = arg 2 → maps true (arg 0) (4 * n) py → maps false (arg 1) (4 * n) px → once (4 * n) py →
      apart (4 * n) py (4 * n) px →
      makes (.nmuAxpy site u) (4 * n) (4 * n) py (fun i => add (word py i) (mul (c.num 36 4) (word px i)))) ∧
    (∀ px pd n, c.entry = 2 → n = arg 1 → maps false (arg 0) (4 * n) px → maps true (arg 2) 4 pd → once 4 pd →
      makes (.nmuSumReduce site u) 4 4 pd (fun _ => ((List.range n).map (word px)).foldl add 0)) ∧
    (∀ pt pi pv n, c.entry = 3 → n = arg 3 → maps false (arg 1) (4 * n) pi → maps false (arg 2) (4 * n) pv →
      (∀ i, i < n → maps true (arg 0 + 4 * word pi i) 4 (fun j => pt (4 * i + j))) → once (4 * n) pt → apart (4 * n) pt (4 * n) pi →
      apart (4 * n) pt (4 * n) pv → makes (.nmuScatterAdd site u) (4 * n) (4 * n) pt (fun i => add (word pt i) (word pv i))) ∧
    (∀ pd ps pi n, c.entry = 4 → n = arg 3 → maps true (arg 0) (4 * n) pd → maps false (arg 2) (4 * n) pi →
      (∀ i, i < n → maps false (arg 1 + 4 * word pi i) 4 (fun j => ps (4 * i + j))) → once (4 * n) pd → apart (4 * n) pd (4 * n) pi →
      apart (4 * n) pd (4 * n) ps → makes (.nmuGather site u) (4 * n) (4 * n) pd (word ps)) ∧
    (∀ pa pb pk pl n, c.entry = 5 → n = arg 2 → maps false (arg 0) (128 * n) pa → maps false (arg 4) n pk →
      maps true (arg 1) (128 * n) pb → maps true (arg 5) n pl → once (128 * n) pb → once n pl → apart (128 * n) pb n pl →
      apart (128 * n) pb (128 * n) pa → apart (128 * n) pb n pk → apart n pl (128 * n) pa → apart n pl n pk →
      let enc (i : Nat) := encodeScaled (c.num 37 1 % 32) ((List.range 128).map (fun j =>
        (mulFV (b8Value (c.num 36 1 % 32) (s.homeByte (pa (128 * i + j))).toNat) (b8Value b8Scale (s.homeByte (pk i)).toNat)).1))
      ∃ s' r, exec (.nmuReEncode site u) s = .next s' ∧ Started s' core (2 + u) c (129 * n) r ∧
        (∀ i j, i < n → j < 128 → s'.homeByte (pb (128 * i + j)) = BitVec.ofNat 8 ((enc i).1.getD j 0)) ∧
        (∀ i, i < n → s'.homeByte (pl i) = BitVec.ofNat 8 (enc i).2.1) ∧
        ∀ a, (∀ k, k < 128 * n → pb k ≠ a) → (∀ k, k < n → pl k ≠ a) → s'.homeByte a = s.homeByte a)) ∧
  (∀ (s : State) (site u core : Nat) (c : Cmd) (b : Block), site < 16 → s.memOk → s.linesOk →
    (u < 4 → (s.site site).fenced = false → ((s.site site).unit u).fenced = false → (∀ r ∈ (s.site site).running, r.engine ≠ 2 + u) →
      s.siteHead site u (((List.range 4).filter (fun v => (s.site site).unitFor v == some u)).map (· + 2)) = some (core, c) →
      Taken s c b 0x10 (s.nmuCheck b c) → (∀ w ∈ s.cycleWrites, w.space = 0 → w.rank ≤ engRank core (2 + u)) → 5 < c.entry → ∀ (va : Nat) (x : Word) (landed : Nat) (w : FlagWord) (p : Nat → Nat),
        s.Maps core c.asid true true va 4 p → (∀ i j, i < 4 → j < 4 → p i = p j → i = j) →
        ∃ s' r, exec (.nmuCustomCall site u [(va, x, [])] landed w) s = .next s' ∧ Started s' core (2 + u) c landed r ∧ r.flags = w ∧
          (∀ j, j < 4 → s'.homeByte (p j) = x.extractLsb' (8 * j) 8) ∧ ∀ a, (∀ j, j < 4 → p j ≠ a) → s'.homeByte a = s.homeByte a) ∧
    (((s.site site).unit 4).fenced = false → s.siteHead site 4 [6] = some (core, c) → Taken s c b 0x20 (attCheck b c) →
      let x := c.att
      let row := if x.kvf = 0x41 then 2 * x.d else x.d + x.d / 128
      ∀ pk pv : Nat → Nat → Nat → Nat,
        (∀ h t, h < x.heads → t < x.len → s.Maps core c.asid false false (x.kbase + h * x.hstr + t * x.kstr) row (pk h t) ∧
          s.Maps core c.asid false false (x.vbase + h * x.hstr + t * x.kstr) row (pv h t)) →
        ∃ s' r, Leaves (.attDecode site true) s s' ∧
          Started s' core 6 c (4 * x.heads * x.d + (if x.mlofs = 0xFFFFFFFF then 0 else 8 * x.heads)) r))

/-! ### Traps and control registers (chapters 9 and 21) -/

/-- R203, R351, R353, R355, R356. TRAP n and BRK n (with no breakpoint armed) take causes 0x12 and 0x13 with TVAL n, and an unassigned opcode
cause 0x01. In user mode, with its windows closed, the thread enters the handler of its ASID in trap mode and joins the trap skein of
its issue; with a window open the trap waits. In trap mode, or without a handler, it is a double fault: the block stops and firmware
has cause 0x15; that its report gives 0 as the cause met where there is no handler is the model's reading (log 8). With breakpoints armed,
BRK halts the thread and the halt record of Table 21.7 leaves. -/
def Obligations.TrapEntry : Prop :=
  ∀ (i : Instr) (x : TrapInfo) (retires : Bool) (opc : Byte) (f : Fields) (s : State) (tk : Nat) (t : Thread) (b : Block),
    Alone s tk t b → guardOf t f = true →
    (i = .brk f → wordTrap .brk f t b = none → s.brk = true → (∀ m k, t.wait ≠ .bar m k) → ∃ s' u r, Leaves i s s' ∧ s'.thread? tk = some u ∧
      u = { t with wait := .halted, waitSince := u.waitSince } ∧ (∀ k, k ≠ tk → s'.thread? k = s.thread? k) ∧
      s'.out = s.out ++ [.halt r] ∧ r.length = 32 ∧ leNat (r.take 8) = t.pc.toNat + (if t.mode = .trap then 2 ^ 63 else 0) ∧
      r.getD 8 0 = 1 ∧ leNat ((r.drop 24).take 8) = s.clk % 2 ^ 64) ∧
    ((i = .trap f ∧ wordTrap .trap f t b = none ∧ x = ⟨0x12, f.imm.toNat, 0⟩ ∧ retires = true) ∨
      (i = .brk f ∧ wordTrap .brk f t b = none ∧ s.brk = false ∧ x = ⟨0x13, f.imm.toNat, 0⟩ ∧ retires = false) ∨
      (i = .unassignedOpcode opc f ∧ Op.ofCode opc = none ∧ x = ⟨0x01, opc.toNat, opc.toNat * 2 ^ 8⟩ ∧ retires = false) →
      (t.mode = .user → t.pends = [] → Sparse.getD s.tvec b.asid 0 ≠ 0 → b.trapSkeins.length < 3072 →
        ∃ s', Leaves i s s' ∧ Entered s s' tk t b x (if retires then t.pc + 12 else t.pc) s.cur.id) ∧
      (t.mode = .user → t.pends ≠ [] → Leaves i s (s.setThread tk { t with
        pendTrap := some (x, s.cur.id, retires), wait := .closing, waitSince := s.clk })) ∧
      (∀ u (met : Nat), (t.mode = .trap ∧ u = t ∧ met = x.cause) ∨
          (t.mode = .user ∧ t.pends = [] ∧ Sparse.getD s.tvec b.asid 0 = 0 ∧ met = 0 ∧ u = { t.dropHeld with
            mode := .trap, tpc := (if retires then t.pc + 12 else t.pc).setWidth 64, tcause := BitVec.ofNat 64 x.cause
            tval := BitVec.ofNat 64 x.tval, tinfo := BitVec.ofNat 64 x.tinfo, h := [], wait := .none, pendTrap := none, pendFault := none
            walkFail := none, entering := x.cause }) →
        ∃ s', Leaves i s s' ∧ s'.block? (tkBk tk) = some { b with doubleFault := true } ∧
          (∀ k, k ≠ tkBk tk → s'.block? k = s.block? k) ∧ (∀ k, k ≠ tk → s'.thread? k = s.thread? k) ∧ s'.thread? tk = some u ∧
          s'.out = s.out ++ [.report "double fault" [tk, 0x15, u.entering, met]]))

/-- R203, R351, R354. TRET goes to TPC in user mode with TCAUSE 0; the thread leaves its trap skein, whose phase expects it no more, and a
trap skein without a member is gone. -/
def Obligations.TrapReturn : Prop :=
  ∀ (f : Fields) (s : State) (tk : Nat) (t : Thread) (b : Block), Executes .tret f s tk t b →
    let thr := tkThr tk
    let back : Thread := { t.retireTo (t.tpc.setWidth 56) with tcause := 0, mode := .user, h := [], trapSkein := none }
    let goes (zs : List TrapSkein) : Prop := ∃ s', Leaves (.tret f) s s' ∧ s'.thread? tk = some back ∧
      (∀ k, k ≠ tk → s'.thread? k = s.thread? k) ∧ s'.block? (tkBk tk) = some { b with trapSkeins := zs } ∧
      ∀ k, k ≠ tkBk tk → s'.block? k = s.block? k
    (t.trapSkein = none → goes b.trapSkeins) ∧
    (∀ z, z ∈ b.trapSkeins → t.trapSkein = some z.num → (b.trapSkeins.map (·.num)).Nodup → (∀ y ∈ b.trapSkeins, y.members ≠ []) →
      (z.members = [thr] → goes (b.trapSkeins.filter (fun y => y.num != z.num))) ∧
      ((∃ j ∈ z.phase.waiting, j ≠ thr) → (∃ j ∈ z.members, j ≠ thr) → goes (b.trapSkeins.map (fun y => if y.num = z.num then
        { y with
          members := y.members.filter (· != thr)
          phase := { y.phase with
            waiting := y.phase.waiting.filter (· != thr), arrived := y.phase.arrived.filter (fun a => a.t != thr) } }
        else y))))

/-- R204 to R208, R248, R299, R350, R380. CRRD waits until the thread's earlier accesses are performed and then writes the 64 bits of a control
register, of its own site and core, to a pair, reserved bits as 0; CNTRD does so with a counter of its slice.
R3, R204, R206, R299, R300, R350, R380. A CRWR that its thread's earlier accesses let through writes source A to its register, as the
write of that register that the next statement gives, and retires; one of TLBINV first waits for its effect. A register that only
holds its value takes the bits that its fields have, and a read-only one nothing. -/
def Obligations.ControlRegisters : Prop :=
  (∀ (f : Fields) (s : State) (tk : Nat) (t : Thread) (b : Block),
    let c := s.core (tkCore tk)
    let x := s.site (tkCore tk / 4)
    let pinned := (((c.dir.filter (fun r => r.live && r.pinned && r.owner == c.quotaSel)).map (·.cnt)).sum)
    let serial : Prop := ∀ r ∈ s.reqs, r.tk = tk → r.doneAt .pkg (s.reqOwn r) = true
    let regs : List (Nat × Nat) :=
      [(0x000, s.devno), (0x001, s.asidbase), (0x002, 0), (0x008, s.tvecsel), (0x009, (Sparse.getD s.tvec s.tvecsel 0).toNat),
        (0x010, t.tpc.toNat), (0x011, t.tcause.toNat), (0x012, t.tval.toNat), (0x013, t.tinfo.toNat),
        (0x020, x.gen0 % 2 ^ 16 * 2 ^ 48 + x.fmask0.toNat * 2 ^ 16 + x.smask0.toNat),
        (0x021, x.gen1 % 2 ^ 16 * 2 ^ 48 + x.fmask1.toNat * 2 ^ 16 + x.smask1.toNat), (0x022, x.rthresh), (0x023, x.wthresh),
        (0x030, (if c.quotaRefused then 2 ^ 62 else 0) + c.quotaSel * 2 ^ 32 + pinned * 2 ^ 8 + Sparse.getD c.quotas c.quotaSel 0),
        (0x040, (if c.droop then 2 ^ 40 else 0) + (if c.det then 8 else c.pcap) * 2 ^ 36 +
          (if c.det then 8 else c.nrat) * 2 ^ 32 + c.est % 2 ^ 16 * 2 ^ 16 + c.budget),
        (0x041, c.drhold),
        (0x050, c.period * 2 ^ 16 + c.slmask.toNat * 4 + (if c.det then 2 else 0) + (if c.en then 1 else 0)),
        (0x051, c.smpBase), (0x052, c.smpSize), (0x053, c.smpWr), (0x054, c.smpRd), (0x055, c.smpDrop)]
    (Executes .crrd f s tk t b → serial → ∀ n v, (n, v) ∈ regs → f.imm.toNat % 4096 = n →
      ∃ s' u, exec (.crrd f) s = .next s' ∧ Computed s s' tk t u b 0 ∧ WroteRegs t u f.d.toNat 2 v) ∧
    (Executes .crrd f s tk t b → ¬serial → ∃ k,
      Leaves (.crrd f) s (s.setThread tk { t with wait := .serial, waitSince := k })) ∧
    GivesRegs (.cntrd f) .cntrd f s tk t b 0 2 (fun v =>
      v = Sparse.getD (s.slice (tkCore tk) (tkThr tk / 32 % 6)).counters (f.imm.toNat % 256) 0 % 2 ^ 64)) ∧
  ((∀ (f : Fields) (s : State) (tk : Nat) (t : Thread) (b : Block) (i : Instr), Executes .crwr f s tk t b →
    let core := tkCore tk
    let site := core / 4
    let v := BitVec.ofNat 64 (opndA .crwr t b f)
    let n := f.imm.toNat % 4096
    let named : List (Nat × Instr) :=
      [(0x000, .controlRegisterWrite core tk n v), (0x001, .controlRegisterWrite core tk n v), (0x002, .tlbinvWrite core v),
        (0x008, .controlRegisterWrite core tk n v), (0x009, .tvecWrite v), (0x010, .tpcWrite tk v),
        (0x011, .controlRegisterWrite core tk n v), (0x012, .controlRegisterWrite core tk n v),
        (0x013, .controlRegisterWrite core tk n v), (0x020, .slhashWrite site 0 v), (0x021, .slhashWrite site 1 v),
        (0x022, .controlRegisterWrite core tk n v), (0x023, .controlRegisterWrite core tk n v),
        (0x030, if v.getLsbD 63 then .rsquotaSet core v else .rsquotaSelect core v), (0x040, .controlRegisterWrite core tk n v),
        (0x041, .controlRegisterWrite core tk n v), (0x050, .smpctlWrite core v), (0x051, .smpbaseWrite core v),
        (0x052, .smpsizeWrite core v), (0x053, .smpwrWrite core v), (0x054, .smprdWrite core v), (0x055, .smpdropWrite core v)]
    (n, i) ∈ named → (∀ id w, t.wait ≠ .effect id w) →
      (s.serialOk tk = true → n ≠ 0x002 → ∃ s1 u, exec i s = .next s1 ∧ s1.thread? tk = some u ∧
        exec (.crwr f) s = .next (s1.setThread tk u.retire)) ∧
      (s.serialOk tk = true → n = 0x002 → ∃ s1 s' k, exec i s = .next s1 ∧ exec (.crwr f) s = .next s' ∧
        s' = { (s1.setThread tk { t with wait := .effect s.nextId (opndA .crwr t b f), waitSince := k }) with nextId := s.nextId + 1 }) ∧
      (s.serialOk tk = false → ∃ k, Leaves (.crwr f) s (s.setThread tk { t with wait := .serial, waitSince := k }))) ∧
  (∀ (f : Fields) (s : State) (tk : Nat) (t : Thread) (b : Block) (id w : Nat), Executes .crwr f s tk t b → t.wait = .effect id w →
    (s.effectDone id w = true → Leaves (.crwr f) s (s.setThread tk t.retire)) ∧
    (s.effectDone id w = false → Leaves (.crwr f) s s)) ∧
  (∀ (core tk : Nat) (v : DWord) (s u : State) (t : Thread) (n : Nat), s.thread? tk = some t →
    let x := v.toNat
    let site := s.site (core / 4)
    let c := s.core core
    (n, u) ∈ [(0x000, s), (0x001, { s with asidbase := x / 2 ^ 16 % 2 ^ 36 * 2 ^ 16 }), (0x008, { s with tvecsel := x % 2 ^ 12 }),
        (0x011, s.setThread tk { t with tcause := BitVec.ofNat 64 (x % 2 ^ 8) }), (0x012, s.setThread tk { t with tval := v }),
        (0x013, s.setThread tk { t with tinfo := BitVec.ofNat 64 (x % 2 ^ 32) }),
        (0x022, s.setSite (core / 4) { site with rthresh := x % 2 ^ 16 }),
        (0x023, s.setSite (core / 4) { site with wthresh := x % 2 ^ 16 }), (0x040, s.setCore core { c with budget := x % 2 ^ 16 }),
        (0x041, s.setCore core { c with drhold := x % 2 ^ 16 })] →
      Leaves (.controlRegisterWrite core tk n v) s u))

/-- R44, R53, R54, R61, R208, R248, R350, R369, R411. The writes with an effect of their own. TLBINV drops from every TLB of the package and from the
placement table the translations that its ASID and VPN match. SLHASH sets the masks of an interleave domain, raises its GEN and moves
the lines that now have another home, with every byte as it reads; a bad SMASK changes nothing. RSQUOTA sets or selects a quota. The
sampler's registers change as R369 allows, and DET = 1 clears predictors and ages. TPC and TVEC take a multiple of 4 below 2^56. -/
def Obligations.WritesWithEffects : Prop :=
  ∀ (core site tk : Nat) (v : DWord) (s : State) (t : Thread), s.thread? tk = some t →
    let x := v.toNat
    let c := s.core core
    let vpn := x / 2 ^ 16 % 2 ^ 40
    let hit (asid first pages : Nat) : Bool :=
      (v.getLsbD 13 || asid == x % 2 ^ 12) && (v.getLsbD 12 || decide (first ≤ vpn ∧ vpn < first + pages))
    let keep (l : List TlbEntry) : List TlbEntry := l.filter (fun e => !hit e.asid e.vpn e.pages)
    let ones := ((List.range 16).filter v.getLsbD).length
    let asid := x / 2 ^ 32 % 2 ^ 12
    let q := x % 2 ^ 6
    let sum := ((c.quotas.filter (fun y => y.1 != asid)).map (·.2)).sum + q
    let sets (i : Instr) (d : Core) : Prop := Leaves i s (s.setCore core d)
    (∃ s', Leaves (.tlbinvWrite core v) s s' ∧ (∀ k, s'.core k = { s.core k with tlb := keep (s.core k).tlb }) ∧
      (∀ k, s'.site k = { s.site k with tlb := keep (s.site k).tlb }) ∧
      (∀ p, p ∈ s'.placement ↔ p ∈ s.placement ∧ hit (p.1 / 2 ^ 40) p.2.2.1 p.2.2.2 = false) ∧
      s' = { s with cores := s'.cores, sites := s'.sites, placement := s'.placement }) ∧
    (∀ n, n < 2 → ones ∉ [1, 2, 4, 8, 16] → Leaves (.slhashWrite site n v) s s) ∧
    (∀ n, n < 2 → ones ∈ [1, 2, 4, 8, 16] → s.memOk → s.linesOk → ∃ s', Leaves (.slhashWrite site n v) s s' ∧
      s'.site site = (if n = 0 then
        { s.site site with
          smask0 := v.extractLsb' 0 16, fmask0 := v.extractLsb' 16 29, gen0 := ((s.site site).gen0 + 1) % 2 ^ 16 }
        else { s.site site with
          smask1 := v.extractLsb' 0 16, fmask1 := v.extractLsb' 16 29, gen1 := ((s.site site).gen1 + 1) % 2 ^ 16 }) ∧
      (∀ k, k ≠ site → s'.site k = s.site k) ∧ s'.threads = s.threads ∧ s'.blocks = s.blocks ∧
      ∀ ln l, Sparse.get? s'.lines ln = some l → l.slice / 16 = site → (s'.site site).frameMode (frameOf (paOfs (ln * 128))) ≠ 1 →
        (s'.site site).domainOf (paOfs (ln * 128)) = n → l.slice = s'.sliceOfPa (ln * 128)) ∧
    (q ≤ 32 ∧ sum ≤ 32 → sets (.rsquotaSet core v) { c with
      quotaSel := asid, quotaRefused := false, quotas := if q = 0 then Sparse.erase c.quotas asid else Sparse.set c.quotas asid q }) ∧
    (32 < q ∨ 32 < sum → sets (.rsquotaSet core v) { c with quotaSel := asid, quotaRefused := true }) ∧
    sets (.rsquotaSelect core v) { c with quotaSel := asid } ∧
    (let period := x / 2 ^ 16 % 2 ^ 24
     let refused : Prop := v.getLsbD 0 = true ∧ (period = 0 ∨ 2 ^ 36 < c.smpBase % 2 ^ 36 + 16 * c.smpSize)
     (refused → Leaves (.smpctlWrite core v) s s) ∧
     (¬refused → ∃ s', Leaves (.smpctlWrite core v) s s' ∧ s'.core core = { c with
        period := period, slmask := v.extractLsb' 2 6, det := v.getLsbD 1, en := v.getLsbD 0
        epoch := if v.getLsbD 0 then s.now core else c.epoch
        offAt := if v.getLsbD 0 then none else if c.en then some s.clk else c.offAt } ∧
       (∀ k, k ≠ core → s'.core k = s.core k) ∧ s' = { s with cores := s'.cores, slices := s'.slices } ∧
       (∀ k i, i < 6 → k ≠ core → s'.slice k i = s.slice k i) ∧
       ∀ i, i < 6 →
        (v.getLsbD 1 = true → (s'.slice core i).predictor = [] ∧ ∀ e ∈ (s'.slice core i).table, e.age = 0) ∧
        (v.getLsbD 1 = false → (s'.slice core i).predictor = (s.slice core i).predictor ∧
          (s'.slice core i).table = (s.slice core i).table) ∧
        (s'.slice core i).sampled = (if v.getLsbD 0 && !c.en then none else (s.slice core i).sampled))) ∧
    (let base := x / 2 ^ 12 % 2 ^ 40 * 2 ^ 12
     sets (.smpbaseWrite core v) (if c.en = false ∧ base / 2 ^ 42 = s.devno ∧ base / 2 ^ 40 % 4 = 0 then { c with smpBase := base } else c)) ∧
    sets (.smpsizeWrite core v) (if c.en = false ∧ ((List.range' 4 21).any (fun k => x == 2 ^ k)) = true then { c with smpSize := x } else c) ∧
    sets (.smpwrWrite core v) (if c.en then c else { c with smpWr := x % 2 ^ 32 }) ∧
    sets (.smprdWrite core v) { c with smpRd := x % 2 ^ 32 } ∧
    sets (.smpdropWrite core v) { c with smpDrop := x % 2 ^ 32 } ∧
    Leaves (.tpcWrite tk v) s (s.setThread tk { t with tpc := v &&& 0x00FFFFFFFFFFFFFC }) ∧
    Leaves (.tvecWrite v) s { s with tvec := Sparse.set s.tvec s.tvecsel ((v &&& 0x00FFFFFFFFFFFFFC).setWidth 56) }

/-- R192, R249, R401, R422. A sleeper wakes when %clk has reached its deadline and not before. A deferred report is held for its thread,
behind those that are there; one for a thread that has ended is dropped and counted. A blocked thread that it reaches leaves its wait at once, at the
waiting instruction, to which the report is then delivered: a wait for an object, a seam, stores, room or an entry simply ends; at BAR or in a
collective whose window has closed the thread withdraws its arrival, the phase expects it again, and it stands at that instruction, the window gone.
The same holds for a report that came while the thread was on a path that proves wrong, with an older collective open. The end of an ASID
revokes its residencies on every core and no other.
R365 to R367, R434, Table 21.9. WAIT CYCLES. A party that is blocked waits for the enablers of Table 21.9: at BAR for the members not yet
arrived, at BWAIT for the held commands of the object and the live threads of its quilt, at SEAMWAIT for the seam's MMAs, an MMA for the block's live
threads, a thread without room for the matrix queue's entries, a held command for the commands that name its node; a thread that has exited, is being
stopped, sleeps or is in STWAIT is not blocked. A probe of a party that has been blocked for less than 2^20 cycles, or from which an unblocked party is
reached, changes nothing. Where every party reached is blocked, each thread among them takes cause 0x16 at its waiting instruction, with the
counts of threads and of others, its arrival withdrawn; commands and entries stay, and so does a cycle of held commands alone of which one waits for
a count that nothing lowers (which waits are parties: log 29). -/
def Obligations.WakesReportsAndProbes : Prop :=
  ((∀ (s : State) (tk : Nat) (t : Thread), s.thread? tk = some t →
    (t.wait = .sleep → t.sleepAt ≤ s.clk → Leaves (.sleepWake tk) s (s.setThread tk { t with wait := .none })) ∧
    (t.wait ≠ .sleep ∨ s.clk < t.sleepAt → ∃ s', Leaves (.sleepWake tk) s s' ∧ ∀ k, s'.thread? k = s.thread? k) ∧
    ∀ cause tval tinfo,
      let i : Instr := .deferredReport tk cause tval tinfo
      let told : Thread := { t with reports := t.reports ++ [⟨cause, tval, tinfo⟩] }
      (t.exited = true → Leaves i s { s with logs := Sparse.set s.logs 1 (Sparse.getD s.logs 1 0 + 1) }) ∧
      (t.exited = false → t.mode = .trap ∨ t.spec.isSome = true ∨ (t.wait = .none ∧ ∀ p ∈ t.pends, p.left ≠ 0) → Leaves i s (s.setThread tk told)) ∧
      (t.exited = false → t.mode = .user → t.spec = none →
        (t.wait = .flags ∨ (∃ c e o p a, t.wait = .bwait c e o p a) ∨ (∃ n p, t.wait = .seam n p) ∨ (∃ n, t.wait = .stwait n) ∨
          (∃ n, t.wait = .matrixRoom n) ∨ ∃ c n, t.wait = .matrixEntry c n) → Leaves i s (s.setThread tk { told with wait := .none })) ∧
      ∀ (b : Block) (k : Nat) (a : Arrival), t.exited = false → t.mode = .user → t.spec = none → s.block? (tkBk tk) = some b →
        let thr := tkThr tk
        let ph := b.phaseOf (.skein k)
        t.wait = .bar false k ∨
          (t.wait = .none ∧ ∃ p rest, t.pends = p :: rest ∧ p.kind = .coll false k ∧ p.left = 0 ∧ p.ready = false ∧ p.id = a.pend) →
        ph.arrived.find? (fun x => x.t == thr) = some a → (ph.arrived.filter (fun x => x.t != thr)) ≠ [] →
        ∃ s' c, Leaves i s s' ∧ s' = { s with threads := s'.threads, blocks := s'.blocks } ∧
          s'.thread? tk = some { told with wait := .none, pc := a.pc, pends := t.pends.filter (fun q => q.id != a.pend) } ∧
          (∀ j, j ≠ tk → s'.thread? j = s.thread? j) ∧ (∀ j, j ≠ tkBk tk → s'.block? j = s.block? j) ∧ s'.block? (tkBk tk) = some c ∧
          c = { b with phases := c.phases } ∧ (∀ j, j ≠ k → c.phaseOf (.skein j) = b.phaseOf (.skein j)) ∧
          c.phaseOf (.skein k) = { ph with
            arrived := ph.arrived.filter (fun x => x.t != thr), late := ph.late.filter (fun x => x.t != thr), waiting := ph.waiting ++ [thr] }) ∧
  (∀ (s : State) (id tk : Nat) (br : Branch) (t c : Thread) (b : Block) (pc : BitVec 56) (x : Bool) (p : SpecPath) (m : BitVec 32) (k : Nat) (q : Pend)
      (rest : List Pend) (a : Arrival),
    let thr := tkThr tk
    s.branches.find? (fun y => y.id = id) = some br → br.pred = some m → br.members = [(tk, pc, x)] → s.thread? tk = some t →
    s.block? (tkBk tk) = some b → Sparse.get? s.ckpts tk = some c → t.spec = some p → p.branch = id → p.taken ≠ x → t.exited = false → t.mode = .user →
    t.reports ≠ [] → c.pends = q :: rest → q.kind = .coll false k → q.left = 0 → q.ready = false → q.id = a.pend →
    (b.phaseOf (.skein k)).arrived.find? (fun y => y.t == thr) = some a →
      ∃ s' u d, Leaves (.branchResolution id) s s' ∧ s'.thread? tk = some u ∧ s'.block? (tkBk tk) = some d ∧ u.wait = .none ∧ u.pc = a.pc ∧
        u.spec = none ∧ u.reports = t.reports ∧ u.v = c.v ∧ u.p = c.p ∧ u.h = c.h ∧ u.pends = c.pends.filter (fun y => y.id != a.pend) ∧
        (d.phaseOf (.skein k)).arrived = (b.phaseOf (.skein k)).arrived.filter (fun y => y.t != thr) ∧
        (d.phaseOf (.skein k)).waiting = (b.phaseOf (.skein k)).waiting ++ [thr]) ∧
  ∀ (s : State) (asid : Nat), risingFrom 0 s.cores = true → (∀ x ∈ s.cores, x.1 < 64) → (∀ c, ((s.core c).dir.map (·.handle c)).Nodup) →
    (∀ c, ∀ r ∈ (s.core c).dir, r.base < 32 ∧ 1 ≤ r.cnt ∧ r.cnt ≤ 32 ∧ r.gen < 2 ^ 16) →
      ∃ s', Leaves (.asidTeardown asid) s s' ∧ s' = { s with cores := s'.cores } ∧
        (∀ c, ∀ r ∈ (s'.core c).dir, r.live = true → r.owner ≠ asid) ∧
        (∀ c, ∀ r ∈ (s.core c).dir, r.live = true → r.owner ≠ asid → r ∈ (s'.core c).dir) ∧
        ∀ c, s'.core c = { s.core c with dir := (s'.core c).dir }) ∧
  ((∀ (s : State) (tk : Nat) (t : Thread) (b : Block), s.thread? tk = some t → s.block? (tkBk tk) = some b →
    let waitsFor (p : Party → Prop) : Prop := ∃ es, s.enablers (.thread tk) = some es ∧ ∀ e, e ∈ es ↔ p e
    let live (bk : Nat) (p : Thread → Prop) (e : Party) : Prop :=
      ∃ k u, (k, u) ∈ s.threads ∧ tkBk k = bk ∧ u.exited = false ∧ p u ∧ e = .thread k
    (t.exited = true ∨ b.stopping = true ∨ t.wait = .sleep ∨ (∃ n, t.wait = .stwait n) → s.enablers (.thread tk) = none) ∧
    (t.exited = false → b.stopping = false →
      (∀ tr k, t.wait = .bar tr k → waitsFor (fun e => ∃ i ∈ (b.phaseOf (if tr then .trap k else .skein k)).waiting, e = .thread (tkBk tk * 4096 + i))) ∧
      (∀ n p, t.wait = .seam n p → (∀ e ∈ b.savedEntries, e.op = .mma → e.seam ≠ n) →
        waitsFor (fun e => ∃ m ∈ (s.core b.core).mxq, m.op = .mma ∧ m.seam = n ∧ tkBk m.tk = tkBk tk ∧ e = .entry b.core m.id)) ∧
      (∀ n, t.wait = .matrixRoom n → s.acqOpen tk = false → waitsFor (fun e => ∃ m ∈ (s.core b.core).mxq, e = .entry b.core m.id)) ∧
      ∀ core k o p a d, t.wait = .bwait core k o p a →
        s.blocks.find? (fun y => y.2.core == core && decide (y.2.spbase ≤ o ∧ o < y.2.spbase + y.2.spsize)) = some d →
        ((∃ c ∈ s.activeCmds, s.barAt c = some (core, o)) → s.enablers (.thread tk) = none) ∧
        ((∀ c ∈ s.activeCmds, s.barAt c ≠ some (core, o)) → waitsFor (fun e =>
          (∃ y ∈ s.blocks, ∃ n ∈ y.2.nodes, ∃ c, n.2.held = some c ∧ s.barAt c = some (core, o) ∧ e = .node y.1 n.1) ∨
          ∃ i ∈ s.quiltOf d.2, live i (fun u => ∀ k' p' a', u.wait ≠ .bwait core k' o p' a') e))) ∧
    (∀ core e, e ∈ (s.core core).mxq → (s.core core).mxq.find? (fun x => x.id == e.id) = some e → e.op = .mma → tkBk e.tk = tkBk tk → e.started = false →
      (s.seamOk e = true → s.enablers (.entry core e.id) = none) ∧
      (s.seamOk e = false → ∃ es, s.enablers (.entry core e.id) = some es ∧ ∀ y, y ∈ es ↔ live (tkBk tk) (fun u => ∀ p, u.wait ≠ .seam e.seam p) y)) ∧
    ∀ n c, (b.node n).held = some c →
      let names (d : Cmd) : Prop := tkBk d.tk = tkBk tk ∧ ((match d.succ with | some m => m | none => s.readMask d b).getLsbD n) = true
      ((b.node n).count ≤ 0 ∨ (∃ d ∈ s.activeCmds, names d) → s.enablers (.node (tkBk tk) n) = none) ∧
      (0 < (b.node n).count → (∀ d ∈ s.activeCmds, ¬names d) → ∃ es, s.enablers (.node (tkBk tk) n) = some es ∧
        ∀ e, e ∈ es ↔ ∃ m ∈ b.nodes, ∃ d, m.2.held = some d ∧ names d ∧ e = .node (tkBk tk) m.1)) ∧
  ∀ (s : State) (p : Party),
    let since : Nat := match p with
      | .thread tk => (match s.thread? tk with | some t => max t.waitSince t.unblocked | none => s.clk)
      | .entry core id => (match (s.core core).mxq.find? (fun e => e.id == id) with | some e => e.since | none => s.clk)
      | .node bk n => (match s.block? bk with
        | some b => (match (b.node n).held with | some c => c.heldSince | none => s.clk)
        | none => s.clk)
    let probe : Instr := .waitProbe p
    (s.clk < since + 2 ^ 20 → Leaves probe s s) ∧ ((∃ q, Reached s p q ∧ s.enablers q = none) → Leaves probe s s) ∧
    ∀ (ps : List Party), ps.Nodup → (∀ q, q ∈ ps ↔ Reached s p q) → (∀ q ∈ ps, s.enablers q ≠ none) →
      ((ps.map (fun q => ((s.enablers q).getD []).length)).sum + 2 < 2 ^ 40) → since + 2 ^ 20 ≤ s.clk →
      ((∀ q ∈ ps, ∃ bk n, q = .node bk n) → (∃ q ∈ ps, s.enablers q = some []) → Leaves probe s s) ∧
      let threads := ps.countP (fun q => match q with | .thread _ => true | _ => false)
      let stands (tk : Nat) (t : Thread) (tval : Nat) : Prop :=
        (∃ k a, t.wait = .bar false k ∧ tval = k * 2 ^ 56 ∧ (∃ b, s.block? (tkBk tk) = some b ∧
          (b.phaseOf (.skein k)).arrived.find? (fun x => x.t == tkThr tk) = some a) ∧ a.pc = t.pc) ∨
        (∃ n ph, t.wait = .seam n ph ∧ tval = 2 * 2 ^ 60 + n * 2 ^ 56) ∨
        (∃ n, t.wait = .matrixRoom n ∧ tval = 3 * 2 ^ 60) ∨
        ∃ core k o ph ea, t.wait = .bwait core k o ph ea ∧
          tval = 2 ^ 60 + (match s.block? (bkOf core k) with | some d => d.bslot | none => k) * 2 ^ 48 + ea
      (∀ q ∈ ps, ∀ bk n, q ≠ .node bk n) → threads < 2 ^ 16 → ps.length - threads < 2 ^ 16 →
      (∀ tk, .thread tk ∈ ps → ∃ t b, s.thread? tk = some t ∧ s.block? (tkBk tk) = some b ∧ t.mode = .user ∧ t.pends = [] ∧ t.spec = none ∧
        (∃ v, stands tk t v) ∧ Sparse.getD s.tvec b.asid 0 ≠ 0 ∧ b.trapSkeins.length + threads < 3072) →
        ∃ s', Leaves probe s s' ∧ (∀ k, .thread k ∉ ps → s'.thread? k = s.thread? k) ∧ s'.cores = s.cores ∧
          ∀ tk t v, .thread tk ∈ ps → s.thread? tk = some t → stands tk t v → ∃ u, s'.thread? tk = some u ∧ u.mode = .trap ∧
            u.tcause = 0x16 ∧ u.tval = BitVec.ofNat 64 v ∧ u.tinfo = BitVec.ofNat 64 (threads + (ps.length - threads) * 2 ^ 16) ∧
            u.tpc = t.pc.setWidth 64 ∧ u.wait = .none ∧ u.v = t.v ∧ u.p = t.p ∧ u.reports = t.reports)

/-- R209 to R211, R345, R369. At a tick of a core's sampler each enabled slice, in ascending order, writes a record of its next resident thread, in
ascending (slot, lane) after its pointer, wrapping, at BASE + 16 × (WR mod SIZE), and WR rises by 1; a full ring drops it and DROP rises instead.
The record of Table 9.8 holds the PC, the lowest skein, whether the thread issued and whether it was replayed, two zero bits, %clk, slice, lane,
block slot, and the first reason of Table 9.9 that applies (where none does, 1; which waits show which reason and PC is log 30). -/
def Obligations.Sampler : Prop :=
  ∀ (s : State) (core : Nat), s.memOk → s.linesOk →
    let c := s.core core
    let pos (tk : Nat) (b : Block) : Nat := (tkThr tk / 192 + b.slotb) * 32 + tkThr tk % 32
    (c.en = false → c.offAt ≠ some s.clk → Leaves (.samplerTick core) s s) ∧
    (∀ (sl tk : Nat) (t : Thread) (b : Block), sl < 6 → c.en = true ∨ c.offAt = some s.clk → (∀ k, k < 6 → c.slmask.getLsbD k = decide (k = sl)) →
      let x := s.slice core sl
      let at_ := c.smpBase + 16 * (c.smpWr % c.smpSize)
      let after (p : Nat) : Prop := ∀ q, x.sampled = some q → q < p
      let cands := (s.sliceThreads core sl).filter (fun y => !y.2.1.exited)
      let noneAfter : Prop := (∃ q, x.sampled = some q) ∧ ∀ y ∈ cands, ¬after (pos y.1 y.2.2)
      let iss : Prop := x.edge = s.clk ∧ tk ∈ x.issuedNow
      (tk, t, b) ∈ cands → (∀ y ∈ cands, y.1 ≠ tk → pos y.1 y.2.2 ≠ pos tk b) → (cands.map (·.1)).Nodup →
      (after (pos tk b) ∨ noneAfter) → (∀ y ∈ cands, after (pos y.1 y.2.2) ∨ noneAfter → pos tk b ≤ pos y.1 y.2.2) →
        (c.smpSize ≤ (c.smpWr + 2 ^ 32 - c.smpRd) % 2 ^ 32 → ∃ s', Leaves (.samplerTick core) s s' ∧
          s'.core core = { c with smpDrop := min (c.smpDrop + 1) (2 ^ 32 - 1) } ∧ (s'.slice core sl).sampled = some (pos tk b) ∧
          s'.threads = s.threads) ∧
        ((c.smpWr + 2 ^ 32 - c.smpRd) % 2 ^ 32 < c.smpSize → c.smpBase % 16 = 0 →
          (∀ k, k < 16 → s.ownDram (at_ + k) = true ∧ s.vaultLost (at_ + k) = false ∧ s.unreachable (core / 4) (at_ + k) = none ∧
            (s.site (paSite (at_ + k))).quadOk (frameOf (paOfs (at_ + k))) = true) →
          ∃ (s' : State) (w : Nat), exec (.samplerTick core) s = .next s' ∧ s'.threads = s.threads ∧
            (s'.core core).smpWr = (c.smpWr + 1) % 2 ^ 32 ∧ (s'.core core).smpDrop = c.smpDrop ∧
            (s'.slice core sl).sampled = some (pos tk b) ∧
            (∀ k, k < 16 → s'.homeByte (at_ + k) = BitVec.ofNat 8 (w / 256 ^ k)) ∧
            (∀ a, (∀ k, k < 16 → a ≠ at_ + k) → s'.homeByte a = s.homeByte a) ∧
            (∀ k o, Memory.read (s'.core k).scratch o = Memory.read (s.core k).scratch o) ∧
            w < 2 ^ 128 ∧ w / 2 ^ 64 % 2 ^ 40 = s.clk % 2 ^ 40 ∧ w / 2 ^ 115 % 8 = sl ∧ w / 2 ^ 110 % 32 = tkThr tk % 32 ∧
            w / 2 ^ 118 = tkSlotEntry tk % 2 ^ 10 ∧ (w / 2 ^ 60 % 2 = 1 ↔ iss) ∧
            w / 2 ^ 62 % 4 = 0 ∧ (w / 2 ^ 56 % 16 = 0 ↔ ∀ k, 1 ≤ k → k < 16 → t.skeins.getLsbD k = false) ∧
            (∀ k, 1 ≤ k → k < 16 → t.skeins.getLsbD k = true → (∀ m, 1 ≤ m → m < k → t.skeins.getLsbD m = false) → w / 2 ^ 56 % 16 = k) ∧
            ((∀ m n, t.wait ≠ .bar m n) → (∀ va, t.wait ≠ .dataWalk va) → t.wait = .refill ∨ t.issuedWait = false → w % 2 ^ 56 = t.pc.toNat) ∧
            ((∃ m n, t.wait = .bar m n) → w % 2 ^ 56 = (t.pc + 12).toNat) ∧
            (t.issuedWait = true → t.wait ≠ .refill → (∀ z f, s.peek tk t b = some (z, f) → Op.ofCode z ∉ [some .call, some .calli, some .ret]) →
              w % 2 ^ 56 = (t.pc + 12).toNat) ∧
            (let reason := w / 2 ^ 104 % 64
             let calm : Prop := ¬iss ∧ t.mode = .user ∧ (x.edge ≠ s.clk ∨ (x.held = false ∧ x.rowed = false))
             let open_ : Prop := ∀ p ∈ t.pends, p.left ≠ 0
             (w / 2 ^ 61 % 2 = 1 ↔ reason = 9 ∨ (iss ∧ tk ∈ x.replayNow)) ∧
             (reason = 0 ↔ iss) ∧ (¬iss → (t.mode = .trap ↔ reason = 14)) ∧
             (¬iss → t.mode = .user → x.edge = s.clk → (x.held = true → reason = 12) ∧ (x.held = false → x.rowed = true → reason = 3)) ∧
             (calm → (∀ i, t.wait = .replay i → reason = if t.replayed then 9 else 11) ∧
               ((∃ i, t.wait = .branch i) ∨ t.wait = .specEnd ∨ t.wait = .specPort → reason = 11) ∧ ((∃ va, t.wait = .walk va) → reason = 10)) ∧
             (calm → open_ →
               ((∃ i j, t.wait = .bar i j) → reason = 4) ∧
               ((∃ i j k l m, t.wait = .bwait i j k l m) → reason = 5) ∧ ((∃ i j, t.wait = .seam i j) → reason = 6) ∧
               (t.wait = .sleep ∨ (∃ i, t.wait = .yielded i) → reason = 13) ∧
               ((∃ i, t.wait = .stwait i) ∨ (∃ i, t.wait = .fence i) ∨ t.wait = .operand ∨ t.wait = .marker ∨ t.wait = .serial → reason = 7) ∧
               ((∃ i, t.wait = .matrixRoom i) ∨ (∃ i j, t.wait = .matrixEntry i j) → reason = 8) ∧
               (t.wait = .refill ∨ t.wait = .closing → reason = 2) ∧
               (t.wait = .none → nextTrap t = none → s.resultsReady tk t b = false → reason = 2) ∧
               (t.wait = .none → s.resultsReady tk t b = true → reason = 1)) ∧
             (calm → t.wait ≠ .none → (∀ i, t.wait ≠ .replay i) → (∀ i, t.wait ≠ .branch i) →
               t.wait ≠ .specEnd → t.wait ≠ .specPort → (∀ i, t.wait ≠ .walk i) → (∃ p ∈ t.pends, p.left = 0) → reason = 2)))) ∧
    let cands (sl : Nat) : List (Nat × Thread × Block) := (s.sliceThreads core sl).filter (fun y => !y.2.1.exited)
    let turns := (List.range 6).filter (fun sl => c.slmask.getLsbD sl && !(cands sl).isEmpty)
    let room := c.smpSize - (c.smpWr + 2 ^ 32 - c.smpRd) % 2 ^ 32
    let placed := min turns.length room
    let at_ (k : Nat) : Nat := c.smpBase + 16 * ((c.smpWr + k) % c.smpSize)
    c.en = true ∨ c.offAt = some s.clk → c.smpSize < 2 ^ 32 → c.smpWr + 6 < 2 ^ 32 → c.smpRd < 2 ^ 32 → c.smpDrop < 2 ^ 32 → c.smpBase % 16 = 0 →
      (∀ k i, k < 6 → i < 16 → s.ownDram (at_ k + i) = true ∧ s.vaultLost (at_ k + i) = false ∧ s.unreachable (core / 4) (at_ k + i) = none ∧
        (s.site (paSite (at_ k + i))).quadOk (frameOf (paOfs (at_ k + i))) = true) →
      ∃ (s' : State) (ws : List Nat), exec (.samplerTick core) s = .next s' ∧ s'.threads = s.threads ∧ s'.blocks = s.blocks ∧ ws.length = placed ∧
        (s'.core core).smpWr = c.smpWr + placed ∧ (s'.core core).smpDrop = min (c.smpDrop + (turns.length - placed)) (2 ^ 32 - 1) ∧
        (∀ (k : Nat) (w : Nat), ws[k]? = some w → some (w / 2 ^ 115 % 8) = turns[k]? ∧ w / 2 ^ 64 % 2 ^ 40 = s.clk % 2 ^ 40 ∧
          ∀ i, i < 16 → s'.homeByte (at_ k + i) = BitVec.ofNat 8 (w / 256 ^ i)) ∧
        (∀ a, (∀ k i, k < placed → i < 16 → a ≠ at_ k + i) → s'.homeByte a = s.homeByte a) ∧
        ∀ sl, sl < 6 → (sl ∈ turns → ∃ y ∈ cands sl, (s'.slice core sl).sampled = some (pos y.1 y.2.2)) ∧
          (sl ∉ turns → (s'.slice core sl).sampled = (s.slice core sl).sampled)

/-! ### Queues, launches and blocks (chapter 13) -/

/-- R3, R276, R277, R283, R446. The queue registers. QCFG with QUANT = 0, QRING with a bad size or entries pending, and a QTAIL that offers more
entries than the ring holds or goes back change nothing; else the fields take the written bits, and a QTAIL adds ring entries behind
the accepted work. QTRIG accepts a run of the graph that is bound, with the patches of its list, or is refused and says so. QGRAPH is
written by firmware only, which then pre-binds: no record that is RUN changes (R284; which records become PRE is log 38). Each of the
five writes COMPLETES in every state. -/
def Obligations.QueueRegisters : Prop :=
  ∀ (q : Nat) (v : DWord) (s : State),
    let x := s.queue q
    let n := v.toNat
    let sets (i : Instr) (y : Queue) : Prop := Leaves i s (s.setQueue q y)
    let setsRead (i : Instr) (y : Queue) : Prop := s.memOk → s.linesOk → ∃ r, OnlyReads s r ∧ Leaves i s (r.setQueue q y)
    let pend (tail : Nat) : Nat := (tail + 2 ^ 32 - x.head) % 2 ^ 32
    let plist := n / 2 ^ 4 % 2 ^ 52 * 2 ^ 4
    let nodes := (Sparse.getD s.graphs x.gid []).length
    let waiting := (x.work.filter (·.isSome)).length
    let good (w : Nat) : Prop := w / 2 ^ 32 % 2 ^ 8 = 0 ∧ w / 2 ^ 46 % 2 ^ 6 = 0 ∧ w / 2 ^ 52 < nodes
    (∀ fw, (∃ s', exec (.qcfgWrite q v) s = .next s') ∧ (∃ s', exec (.qringWrite q v) s = .next s') ∧
      (∃ s', exec (.qtailWrite q v) s = .next s') ∧ (∃ s', exec (.qtrigWrite q v) s = .next s') ∧
      ∃ s', exec (.qgraphWrite q fw v) s = .next s') ∧
    (n / 2 ^ 32 = 0 → Leaves (.qcfgWrite q v) s s) ∧
    (n / 2 ^ 32 ≠ 0 → ∃ s', Leaves (.qcfgWrite q v) s s' ∧ s'.queue q = { x with
        quant := n / 2 ^ 32, asid := n / 2 ^ 16 % 2 ^ 12, en := v.getLsbD 3, prio := n % 2 ^ 3 } ∧
      (∀ k, k ≠ q → s'.queue k = s.queue k) ∧ s' = { s with queues := s'.queues, sites := s'.sites } ∧
      (∀ k, s'.site k = { s.site k with reservation := (s'.site k).reservation }) ∧ (v.getLsbD 3 = true → s'.sites = s.sites) ∧
      (v.getLsbD 3 = false → ∀ k r, (s'.site k).reservation = some r → (s.site k).reservation = some r ∧
        ∀ l, s.launch? r.launch = some l → l.queue ≠ q)) ∧
    (n % 2 ^ 5 = 0 ∨ 16 < n % 2 ^ 5 ∨ pend x.tail ≠ 0 → sets (.qringWrite q v) x) ∧
    (0 < n % 2 ^ 5 → n % 2 ^ 5 ≤ 16 → pend x.tail = 0 →
      sets (.qringWrite q v) { x with log2n := n % 2 ^ 5, base := n / 2 ^ 12 % 2 ^ 44 * 2 ^ 12 }) ∧
    (2 ^ x.log2n < pend (n % 2 ^ 32) ∨ pend (n % 2 ^ 32) < pend x.tail → sets (.qtailWrite q v) x) ∧
    (pend (n % 2 ^ 32) ≤ 2 ^ x.log2n → pend x.tail ≤ pend (n % 2 ^ 32) → sets (.qtailWrite q v)
      { x with tail := n % 2 ^ 32, work := x.work ++ List.replicate (pend (n % 2 ^ 32) - pend x.tail) none }) ∧
    (x.gid = 0xFFFF ∨ 255 ≤ waiting → sets (.qtrigWrite q v) { x with refused := true }) ∧
    (x.gid ≠ 0xFFFF → waiting < 255 → s.readVa x.asid plist 8 = none → setsRead (.qtrigWrite q v) { x with refused := true }) ∧
    (∀ hd, x.gid ≠ 0xFFFF → waiting < 255 → s.readVa x.asid plist 8 = some hd →
      let m := leNat hd % 8192
      (4096 < m → setsRead (.qtrigWrite q v) { x with refused := true }) ∧
      (m ≤ 4096 → s.readVa x.asid (plist + 8) (8 * m) = none → setsRead (.qtrigWrite q v) { x with refused := true }) ∧
      ∀ bs, m ≤ 4096 → s.readVa x.asid (plist + 8) (8 * m) = some bs →
        let w (i : Nat) : Nat := leNat ((bs.drop (8 * i)).take 8)
        ((∃ i, i < m ∧ ¬good (w i)) → setsRead (.qtrigWrite q v) { x with refused := true }) ∧
        ((∀ i, i < m → good (w i)) → setsRead (.qtrigWrite q v) { x with
          plist := plist, refused := false
          work := x.work ++ [some (x.gid, (List.range m).map (fun i => (w i / 2 ^ 52, w i / 2 ^ 40 % 2 ^ 6, w i % 2 ^ 32)))] })) ∧
    (∃ s', Leaves (.qgraphWrite q true v) s s' ∧ s'.queue q = { x with gid := n % 2 ^ 16 } ∧ (∀ k, k ≠ q → s'.queue k = s.queue k) ∧
      s' = { s with queues := s'.queues, cores := s'.cores } ∧
      (Sparse.getD s.graphs (n % 2 ^ 16) [] = [] → (∀ c ∈ s.cores, c.2.pre = []) → s'.cores = s.cores) ∧
      ∀ k, s'.core k = { s.core k with
          records := (s'.core k).records, pre := (s'.core k).pre, launches := (s'.core k).launches, ltvalid := (s'.core k).ltvalid } ∧
        ((∀ e y, Sparse.get? (s.core k).pre e = some y → y.1 = q → ((s.core k).record e).state ≠ 2) →
          ∀ e, ((s.core k).record e).state = 2 → (s'.core k).record e = (s.core k).record e)) ∧
    Leaves (.qgraphWrite q false v) s s

/-- R277, R278, R279, R281, R440, R443, R444, R445. A queue that is enabled and has nothing in progress begins its next ring entry: HEAD moves
past it, and the launch has its descriptor's fields and a copy of its 64 constants. An entry or a descriptor that breaks R445 makes an invalid
launch, and one bound to a fenced core a launch that cannot be placed: both complete at once, with CODE 0x06 or 0x04 and every block lost, and the
queue has nothing in progress. A launch whose blocks have all ended or are lost completes: its queue is free again, and its completion record
says how many were lost, with which CODE, and when; of a graph node that ends with another CODE than 0x01 no later node is left waiting: each
is done with CODE 0x05, and the run completes with its last node. -/
def Obligations.LaunchesBeginAndComplete : Prop :=
  let recordOf (lost code clk : Nat) : List Byte := leBytes 4 (min lost 0xFFFF * 2 ^ 16 + code) ++ leBytes 4 0 ++ leBytes 8 clk
  let written (s s' : State) (pa : Nat) (bs : List Byte) : Prop :=
    ∀ a, s'.homeByte a = if pa ≤ a ∧ a < pa + 16 then bs.getD (a - pa) 0 else s.homeByte a
  let writable (s : State) (asid va pa : Nat) : Prop := va ≠ 0 ∧ va % 16 = 0 ∧ va < 2 ^ 56 ∧ (∃ unc, s.schedPa asid va true = some (pa, unc)) ∧
    pa % 16 = 0 ∧ s.ownDram pa = true ∧ s.vaultLost pa = false ∧ (s.site (paSite pa)).quadOk (frameOf (paOfs pa)) = true ∧
    s.unreachable 0 pa = none
  (∀ (q : Nat) (s : State) (rest : List (Option (Nat × List (Nat × Nat × Nat)))), s.memOk → s.linesOk →
    let x := s.queue q
    let taken : Queue := { x with head := (x.head + 1) % 2 ^ 32, work := rest, begun := (x.begun + 1) % 2 ^ 32 }
    let ring := s.readVa x.asid (x.base + 8 * (x.head % 2 ^ x.log2n)) 8
    let desc : Option (List Byte) := ring.bind (fun rb => if leNat rb % 128 = 0 then s.readVa x.asid (leNat rb) 128 else none)
    x.work = none :: rest → x.en = true → x.current = none → x.run = none →
    OnlyReads s (s.ringReads x) ∧
    (∀ bs ks rb,
      let d := parseDesc bs
      let r := s.ringReads x
      ring = some rb → desc = some bs → d.formOk (leNat (bs.take 8)) = true → s.readVa x.asid d.const 256 = some ks →
      (d.compl = 0 ∨ s.canWrite x.asid d.compl 16 = true) →
      ((d.affinity = false ∨ ((s.resOf d.affin).isSome = true ∧ (s.core (hCore d.affin)).fenced = false)) →
        ∃ s' l, Leaves (.launchBegin q) s s' ∧ s'.launch? s.nextId = some l ∧ s'.queue q = { taken with current := some s.nextId } ∧
          (∀ k, k ≠ q → s'.queue k = s.queue k) ∧ (∀ k, k ≠ s.nextId → s'.launch? k = s.launch? k) ∧
          s' = { r with queues := s'.queues, launches := s'.launches, nextId := s.nextId + 1 } ∧
          l.queue = q ∧ l.asid = x.asid ∧ l.ref = leNat rb ∧ l.desc = d ∧ l.bytes = bs ∧ l.next = 0 ∧ l.ended = [] ∧ l.lost = 0 ∧ l.redo = [] ∧
          l.born = [] ∧ l.lostBlks = [] ∧ l.node = none ∧ l.code = 1 ∧ l.consts.length = 64 ∧
          ∀ i, i < 64 → l.consts.getD i 0 = ks.getD (4 * i + 3) 0 ++ ks.getD (4 * i + 2) 0 ++ ks.getD (4 * i + 1) 0 ++ ks.getD (4 * i) 0) ∧
      (d.affinity = true → (s.core (hCore d.affin)).fenced = true ∨ s.resOf d.affin = none → d.compl = 0 →
        ∃ s', Leaves (.launchBegin q) s s' ∧ s'.queue q = { taken with current := none } ∧ s'.launch? s.nextId = none ∧ s'.blocks = s.blocks ∧
          s'.out = s.out) ∧
      ∀ pa, d.affinity = true → (s.core (hCore d.affin)).fenced = true ∨ s.resOf d.affin = none → writable r x.asid d.compl pa →
        ∃ s', exec (.launchBegin q) s = .next s' ∧ s'.queue q = { taken with current := none } ∧ s'.launch? s.nextId = none ∧
          s'.blocks = s.blocks ∧ written s s' pa (recordOf d.nblk 4 s.clk)) ∧
    (let invalid : Prop := ∀ bs, desc = some bs → let d := parseDesc bs
      d.formOk (leNat (bs.take 8)) = false ∨ s.readVa x.asid d.const 256 = none ∨ (d.compl ≠ 0 ∧ s.canWrite x.asid d.compl 16 = false)
     invalid → (∀ bs, desc = some bs → (parseDesc bs).compl = 0 ∨ (parseDesc bs).compl % 16 ≠ 0) →
      ∃ s', Leaves (.launchBegin q) s s' ∧ s'.queue q = { taken with current := none } ∧ s'.launch? s.nextId = none ∧
        s'.blocks = s.blocks ∧ s'.threads = s.threads ∧ s'.out = s.out ++ [.report "invalid launch" [q, x.head % 2 ^ 32]]) ∧
    ∀ bs pa, desc = some bs →
      let d := parseDesc bs
      d.formOk (leNat (bs.take 8)) = false ∨ s.readVa x.asid d.const 256 = none → writable (s.ringReads x) x.asid d.compl pa →
      ∃ s', exec (.launchBegin q) s = .next s' ∧ s'.queue q = { taken with current := none } ∧ s'.launch? s.nextId = none ∧
        s'.blocks = s.blocks ∧ s'.threads = s.threads ∧ s'.out = s.out ∧ written s s' pa (recordOf d.nblk 6 s.clk)) ∧
  (∀ (q : Nat) (s : State), (s.queue q).en = false ∨ (s.queue q).current.isSome = true ∨ (s.queue q).run.isSome = true ∨
      (s.queue q).work.head? ≠ some none → Leaves (.launchBegin q) s s) ∧
  ∀ (s : State) (l : Launch), s.launch? l.id = some l → s.memOk → s.linesOk →
    let compl := l.desc.compl
    let passed : Prop := l.desc.nblk ≤ l.ended.length + l.lost ∧ l.redo = [] ∧ (∀ c ∈ s.blocks, c.2.launch ≠ l.id) ∧
      ∀ x ∈ s.saved, x.block.launch ≠ l.id
    let code := if l.invalid then 6 else if l.doubleFault then 3 else if l.failed then 2 else if l.unplaceable then 4
      else if l.skipped then 5 else 1
    let ends (s' : State) : Prop := s'.launch? l.id = none ∧ (s'.queue l.queue).current = none ∧ s'.blocks = s.blocks ∧ s'.threads = s.threads ∧
      (∀ k, k ≠ l.queue → s'.queue k = s.queue k) ∧ ∀ c o, Memory.read (s'.core c).scratch o = Memory.read (s.core c).scratch o
    (¬passed → Leaves (.launchComplete l.id) s s) ∧
    (passed → l.node = none → compl = 0 → code ≠ 6 → ∃ s', Leaves (.launchComplete l.id) s s' ∧ ends s') ∧
    (∀ pa, passed → l.node = none → writable s l.asid compl pa →
      ∃ s', exec (.launchComplete l.id) s = .next s' ∧ ends s' ∧ written s s' pa (recordOf l.lost code s.clk)) ∧
    ∀ (run n : Nat) (r : Run), passed → l.node = some (run, n) → Sparse.get? s.runs run = some r →
      let g := Sparse.getD s.graphs r.gid []
      let waits (z : Run) (i : Nat) : Prop := z.nodes[i]? = some .waiting
      let stuck (z : Run) : Prop := ∃ (i j c : Nat) (m : GraphNode), z.nodes[i]? = some (.done c) ∧ c ≠ 1 ∧ g[i]? = some m ∧ j ∈ m.succs ∧ waits z j
      r.id = run → n < g.length → r.nodes.length = g.length → g.length ≤ 4096 → ¬stuck r →
      ∃ s' z, exec (.launchComplete l.id) s = .next s' ∧ s'.launch? l.id = none ∧ z = { r with nodes := z.nodes } ∧
        z.nodes.length = r.nodes.length ∧ z.nodes[n]? = some (.done code) ∧ (∀ i, i ≠ n → ¬waits r i → z.nodes[i]? = r.nodes[i]?) ∧
        (∀ i, i ≠ n → waits r i → waits z i ∨ (code ≠ 1 ∧ z.nodes[i]? = some (.done 5))) ∧ ¬stuck z ∧
        ((∀ y ∈ z.nodes, ∃ c, y = .done c) → Sparse.get? s'.runs run = none ∧ (s'.queue r.queue).run = none) ∧
        (¬(∀ y ∈ z.nodes, ∃ c, y = .done c) → Sparse.get? s'.runs run = some z ∧ (s'.queue r.queue).run = (s.queue r.queue).run)

/-- R282 to R284, R287, R447. A trigger becomes a run with its patches in the constants of its graph and every node waiting; a node whose
predecessors have all completed with CODE 0x01 begins a launch with its descriptor and its constants. A PRE record of the node whose slot levels,
scratchpad, tiles and seam set no RUN record of its core holds then becomes RUN and its block starts with the patched constants; else it is FREE
again.
R282, R447 (and R408, R311 through log 56: a port whose die is cut off from site 0 is answered so). An uploaded image that passes the checks
becomes the graph, pre-bound anew where its id is bound (log 38); one that fails is answered with the first check that it fails, in the order
of R447, and the lowest node that fails it: for a cycle, the lowest from which an endless walk along the edges begins. -/
def Obligations.Graphs : Prop :=
  ((∀ (q gid : Nat) (s : State) (ps : List (Nat × Nat × Nat)) (rest : List (Option (Nat × List (Nat × Nat × Nat)))),
    let x := s.queue q
    let g := Sparse.getD s.graphs gid []
    x.work = some (gid, ps) :: rest → x.en = true → x.current = none → x.run = none → g ≠ [] → (∀ n ∈ g, n.consts.length = 64) →
    (∀ p ∈ ps, p.1 < g.length ∧ p.2.1 < 64) →
      ∃ s' g', Leaves (.graphRunBegin q) s s' ∧ s'.queue q = { x with work := rest, run := some s.nextId } ∧
        Sparse.get? s'.runs s.nextId = some ⟨s.nextId, q, gid, List.replicate g.length .waiting⟩ ∧
        Sparse.get? s'.graphs gid = some g' ∧ g'.length = g.length ∧
        s' = { s with queues := s'.queues, runs := s'.runs, graphs := s'.graphs, nextId := s.nextId + 1 } ∧
        ∀ (i : Nat) (m m' : GraphNode), g[i]? = some m → g'[i]? = some m' → m' = { m with consts := m'.consts } ∧ ∀ j, j < 64 →
          m'.consts.getD j 0 = match ps.reverse.find? (fun p => p.1 == i && p.2.1 == j) with
            | some p => BitVec.ofNat 32 p.2.2
            | none => m.consts.getD j 0) ∧
  (∀ (s : State) (run node : Nat) (r : Run) (n : GraphNode),
    let g := Sparse.getD s.graphs r.gid []
    let x := s.queue r.queue
    let d := parseDesc n.desc
    let start (s' : State) (l : Launch) : Prop := exec (.graphNodeBegin run node) s = .next s' ∧ s'.launch? s.nextId = some l ∧ l.desc = d ∧
      l.bytes = n.desc ∧ l.consts = n.consts ∧ l.queue = r.queue ∧ l.asid = x.asid ∧ l.node = some (run, node) ∧ l.next = 0 ∧ l.ended = [] ∧
      l.lost = 0 ∧ Sparse.get? s'.runs run = some { r with nodes := r.nodes.set node (.begun s.nextId) }
    Sparse.get? s.runs run = some r → g[node]? = some n → r.nodes[node]? = some .waiting → x.en = true →
    (∀ (i : Nat) (m : GraphNode), g[i]? = some m → node ∈ m.succs → r.nodes[i]? = some (.done 1)) → d.formOk (leNat (n.desc.take 8)) = true →
    (d.compl = 0 ∨ s.canWrite x.asid d.compl 16 = true) → d.affinity = false →
    ((∀ c ∈ s.cores, ∀ y ∈ c.2.records, y.2.state ≠ 1) →
      ∃ s' l, start s' l ∧ SameBytes s s' ∧ s'.blocks = s.blocks ∧ s'.threads = s.threads) ∧
    ∀ core e, let c := s.core core
      let p := c.record e
      let held (k : Nat) : Prop := k ≠ e ∧ (c.record k).state = 2
      let apart (a n b m : Nat) : Prop := n = 0 ∨ m = 0 ∨ a + n ≤ b ∨ b + m ≤ a
      let free : Prop := c.fenced = false ∧ (s.site (core / 4)).fenced = false ∧ p.slotb + d.levels ≤ 16 ∧ p.spbase + p.spsize ≤ 16384 ∧
        p.abase + p.accn ≤ 8 ∧ ∀ k, held k → let h := c.record k
          apart p.slotb d.levels h.slotb (s.levelsOf core k) ∧ apart p.spbase p.spsize h.spbase h.spsize ∧
          apart p.abase p.accn h.abase h.accn ∧ p.seamset ≠ h.seamset
      risingFrom 0 s.cores = true → risingFrom 0 c.records = true → e < 64 →
      (∀ y ∈ s.cores, ∀ z ∈ y.2.records, z.2.state = 1 → y.1 = core ∧ z.1 = e) → p.state = 1 → Sparse.get? c.records e = some p →
      Sparse.get? c.pre e = some (r.queue, r.gid, node) → s.block? (bkOf core e) = none → p.rst = false → d.quilt = 1 → p.blk < d.nblk →
      n.desc.length = 128 → n.consts.length = 64 → (∀ k, k < 64 → c.ltvalid.getLsbD k = false → (∀ z ∈ c.records, z.2.ltag ≠ k)) →
      (∃ k, k < 64 ∧ c.ltvalid.getLsbD k = false ∧ (s.boundTags core).contains k = false) →
      (∀ y ∈ s.blocks, y.2.launch ≠ s.nextId) → (∀ y ∈ s.saved, y.block.launch ≠ s.nextId) →
      (∀ y ∈ s.cores, ∀ z ∈ y.2.placed, z.2 ≠ s.nextId) → (s.site (core / 4)).reservation = none →
      (free → ∃ s' l k, start s' l ∧ ((s'.core core).record e).state = 2 ∧ ((s'.core core).record e).blk = p.blk ∧
        ((s'.core core).record e).ltag = k ∧ (s'.core core).ltDesc k = d ∧ (s'.core core).ltConsts k = n.consts ∧
        ((s.site (core / 4)).applied ≠ 7 → d.ntid ≤ 3072 → ∃ b, s'.block? (bkOf core e) = some b ∧ b.blk = p.blk ∧ b.launch = s.nextId ∧ b.desc = d ∧
          b.consts = n.consts)) ∧
      (¬free → ∃ s' l, start s' l ∧ SameBytes s s' ∧ (s'.core core).record e = p.withState 0 ∧ s'.blocks = s.blocks ∧ s'.threads = s.threads)) ∧
  ∀ (s : State) (run node : Nat) (r : Run), Sparse.get? s.runs run = some r →
    (∃ (i : Nat) (m : GraphNode), (Sparse.getD s.graphs r.gid [])[i]? = some m ∧ node ∈ m.succs ∧ r.nodes[i]? ≠ some (.done 1)) →
      Leaves (.graphNodeBegin run node) s s) ∧
  (∀ (s : State) (port gid : Nat) (img : List Byte), gid < 0xFFFF → img.length ≤ 2 ^ 24 →
    let n := leNat (img.take 2)
    let u16 (k : Nat) : Nat := leNat ((img.drop k).take 2)
    let cut := s.cutOff (edgeSite (controlDie port)) 0
    let refused (k i : Nat) : Prop := Leaves (.graphUpload port gid img) s (s.emit (.report "graph refused" [port, gid, k, i]))
    let desc (i : Nat) : List Byte := ((img.drop (16 + 384 * i)).take 384).take 128
    let preds (i : Nat) : Nat := u16 (16 + 384 * n + 8 * i)
    let many (i : Nat) : Nat := u16 (16 + 384 * n + 8 * i + 2)
    let succ (i j : Nat) : Nat := u16 (leNat ((img.drop (16 + 384 * n + 8 * i + 4)).take 4) + 2 * j)
    let names (i k : Nat) : Prop := ∃ j, j < many i ∧ succ i j = k
    let header : Prop := n = 0 ∨ 4096 < n ∨ ∃ b ∈ (img.drop 2).take 14, b ≠ 0
    let badSucc (i : Nat) : Prop := ∃ j, j < many i ∧ (n ≤ succ i j ∨ ∃ k, k < j ∧ succ i k = succ i j)
    let badPred (i : Nat) : Prop := ∀ l : List Nat, l.Nodup → (∀ k, k ∈ l ↔ k < n ∧ names k i) → l.length ≠ preds i
    let endless (i : Nat) : Prop := ∃ f : Nat → Nat, f 0 = i ∧ ∀ k, names (f k) (f (k + 1))
    let badDesc (i : Nat) : Prop := ({ parseDesc (desc i) with compl := 0 } : Desc).formOk (leNat ((desc i).take 8)) = false
    let first (p : Nat → Prop) (i : Nat) : Prop := i < n ∧ p i ∧ ∀ k, k < i → ¬p k
    let none_ (p : Nat → Prop) : Prop := ∀ i, i < n → ¬p i
    let total := ((s.graphs.filter (fun c => c.1 != gid)).map (fun c => c.2.length)).sum + n
    let busy : Prop := ∃ q ∈ s.queues, q.2.gid = gid ∧ (q.2.run.isSome = true ∨ ∃ w ∈ q.2.work, w.isSome = true)
    (cut = true → Leaves (.graphUpload port gid img) s (s.emit (.report "refused" [port, gid, 7]))) ∧
    (cut = false → (header → refused 1 0) ∧ (¬header →
      (∀ i, first badSucc i → refused 2 i) ∧ (none_ badSucc →
        (∀ i, first badPred i → refused 3 i) ∧ (none_ badPred →
          (∀ i, first endless i → refused 4 i) ∧ (none_ endless →
            (∀ i, first badDesc i → refused 5 i) ∧ (none_ badDesc →
              (32768 < total → refused 6 0) ∧ (total ≤ 32768 → busy → refused 7 0) ∧
              (total ≤ 32768 → ¬busy → ∃ s' g, Leaves (.graphUpload port gid img) s s' ∧
                s' = { s with graphs := Sparse.set s.graphs gid g, cores := s'.cores } ∧
                ((∀ q ∈ s.queues, q.2.gid ≠ gid) → s'.cores = s.cores) ∧
                g.length = n ∧ ∀ (i : Nat) (m : GraphNode), g[i]? = some m → m.desc = desc i ∧ m.consts.length = 64 ∧
                  (∀ j, j < 64 → m.consts.getD j 0 = BitVec.ofNat 32 (leNat (((((img.drop (16 + 384 * i)).take 384).drop 128).drop (4 * j)).take 4))) ∧
                  m.preds = preds i ∧ m.succs = (List.range (many i)).map (succ i)))))))))

/-- R21, R41, R72, R286 to R288, R302, R448. BLOCK_DISPATCH places the scheduler's next block: its bind record is RUN, the block has its launch's
descriptor and constants, and its threads stand at ENTRY in user mode in skein 0 alone; memory outside its scratchpad is unchanged
(inside, it starts at 0: log 3). A bind record that software writes does so too where R448 allows it, is kept where it is PRE or
FREE (all its words, and not over a resident block: log 40), and is counted and ignored where it breaks a rule. -/
def Obligations.BlocksStart : Prop :=
  let init (s' : State) (bk : Nat) (d : Desc) : Prop := ∀ thr, thr < d.ntid → ∃ t, s'.thread? (bk * 4096 + thr) = some t ∧
    t.pc = d.entry ∧ t.mode = .user ∧ t.skeins = 1 ∧ t.trapSkein = none ∧ t.depth = 0 ∧ t.pst = 0 ∧ t.wait = .none ∧ t.pends = [] ∧
    t.marks = [] ∧ t.reports = [] ∧ t.exited = false
  (∀ (s : State) (launch site blk : Nat) (l : Launch) (c : Choice) (places : List Choice),
    let u : WorkUnit := ⟨l.id, [(blk, none)]⟩
    let bk := bkOf c.core c.entry
    s.memOk → s.linesOk → s.nextWork = some (l, u, site) → l.id = launch → s.fitSite l u [] places site = some [c] → s.launch? l.id = some l →
    l.desc = parseDesc l.bytes → l.bytes.length = 128 → l.consts.length = 64 → l.redo = [] → l.desc.quilt = 1 → l.desc.ntid ≤ 3072 →
    (c.ltag < 64 ∧ c.slotb < 16 ∧ c.seamset < 16 ∧ c.abase < 8 ∧ l.desc.acc < 16 ∧ blk < 2 ^ 32 ∧ c.spbase < 2 ^ 21 ∧
      l.desc.scratch < 2 ^ 22 ∧ c.entry < 64) → (s.site (c.core / 4)).applied ≠ 7 → s.block? bk = none →
      ∃ s' b, exec (.blockDispatch launch places) s = .next s' ∧ s'.block? bk = some b ∧ b.blk = blk ∧ b.launch = l.id ∧ b.asid = l.asid ∧
        b.desc = l.desc ∧ b.consts = l.consts ∧ b.slotb = c.slotb ∧ b.seamset = c.seamset ∧ b.abase = c.abase ∧ b.accn = l.desc.acc ∧
        b.qrank = 0 ∧ b.flags = [] ∧ b.seams = [] ∧ b.nodes = [] ∧ (b.phaseOf (.skein 0)).waiting = List.range l.desc.ntid ∧
        init s' bk l.desc ∧ ((s'.core c.core).record c.entry).state = 2 ∧ s'.launch? l.id = some { l with
          next := if s.firstFresh l = blk then blk + 1 else l.next, born := Sparse.set l.born blk b.born } ∧
        b.born = Sparse.getD l.born blk s.nextId ∧
        (∀ tk, tkBk tk ≠ bk → s'.thread? tk = s.thread? tk) ∧
        OnlyScratch s s' c.core (c.spbase / 128 * 128) (l.desc.scratch / 128 * 128) ∧
        ∀ o, o < l.desc.scratch / 128 * 128 → Memory.read (s'.core c.core).scratch (c.spbase / 128 * 128 + o) = 0) ∧
  (∀ (s : State) (launch : Nat) (places : List Choice), (∀ w, s.nextWork = some w → w.1.id ≠ launch) →
    Leaves (.blockDispatch launch places) s s) ∧
  ∀ (s : State) (core e : Nat) (v : DWord), e < 64 →
    let c := s.core core
    let r : BindRecord := { c.record e with w0 := v }
    let d := c.ltDesc r.ltag
    let bad : Prop := Leaves (.bindRecordWrite core e v) s (s.setCore core { c with badBinds := c.badBinds + 1 })
    let good : Prop := c.ltvalid.getLsbD r.ltag = true ∧ r.slotb + d.levels ≤ 16 ∧ r.abase + r.accn ≤ 8 ∧ r.spbase + r.spsize ≤ 16384 ∧
      r.reservedSet = false ∧ s.block? (bkOf core e) = none
    (r.state = 0 → s.block? (bkOf core e) = none →
      Leaves (.bindRecordWrite core e v) s (s.setCore core { c with records := Sparse.set c.records e r })) ∧
    (r.state = 0 → (s.block? (bkOf core e)).isSome = true → bad) ∧ (r.state = 3 → bad) ∧
    (r.state = 1 ∨ r.state = 2 → ¬good → bad) ∧
    (r.state = 1 → good → Leaves (.bindRecordWrite core e v) s (s.setCore core { c with
      records := Sparse.set c.records e r, placed := Sparse.erase c.placed e, pre := Sparse.erase c.pre e })) ∧
    (r.state = 2 → good → s.recordFree core e r d.levels = false → bad) ∧
    (r.state = 2 → good → s.recordFree core e r d.levels = true → r.rst = false → (s.site (core / 4)).applied ≠ 7 → d.ntid ≤ 3072 →
      ∃ s' b, exec (.bindRecordWrite core e v) s = .next s' ∧ s'.block? (bkOf core e) = some b ∧ b.blk = v.toNat % 2 ^ 32 ∧ b.desc = d ∧
        b.consts = c.ltConsts r.ltag ∧ init s' (bkOf core e) d ∧ OnlyScratch s s' core (r.spbase * 128) (r.spsize * 128))

/-- R288 to R290, R335, R449. WHERE THE SCHEDULER PLACES WHAT. Of the queues with work that some site can take, one of the highest priority
has the turn: the lowest above the queue served last at that priority, else the lowest. It offers its first launch's first unit that a site can
take: saved units before undispatched ones, those in ascending block index (one that has no room holds back none behind it). The site is
the first of its order with room that no reservation closes: sites by the number of 64 KiB pieces of the footprints homed there, ties by the
lowest piece, then those without by free slot levels and number; AFFIN's alone, or the first alone where placement is strict. Within the
site a block goes to the core whose vault holds most of its vault-local pieces, then to the one with the most free levels, then to the lowest, among
those where its levels, scratchpad, tiles, a seam set, an entry and a launch-table entry are free; of a quilt at most two members to a core. -/
def Obligations.PlacementOrder : Prop :=
  (∀ (s : State),
    let offers (q : Nat) : Prop := q ∈ s.busyQueues ∧ s.placeable q ≠ none
    (s.nextWork = none ↔ ∀ q, ¬offers q) ∧
    (∀ (q : Nat) (l : Launch) (u : WorkUnit) (k : Nat), s.placeable q = some (l, u, k) → (s.queue q).en = true ∧ l.queue = q ∧ s.siteFor l u = some k ∧
      ∃ i j : Nat, (s.launchesOf q)[i]? = some l ∧ (s.units l)[j]? = some u ∧ (∀ m, m < j → ∀ v, (s.units l)[m]? = some v → s.siteFor l v = none) ∧
        ∀ m, m < i → ∀ l' : Launch, (s.launchesOf q)[m]? = some l' → ∀ v ∈ s.units l', s.siteFor l' v = none) ∧
    ∀ w, s.nextWork = some w → ∃ q, offers q ∧ s.placeable q = some w ∧
      let p := (s.queue q).prio
      let rival (k : Nat) : Prop := offers k ∧ (s.queue k).prio = p
      (∀ k, offers k → (s.queue k).prio ≤ p) ∧
      match Sparse.get? s.turns p with
      | none => ∀ k, rival k → q ≤ k
      | some last => (last < q → ∀ k, rival k → last < k → q ≤ k) ∧ (q ≤ last → ∀ k, rival k → q ≤ k ∧ k ≤ last)) ∧
  (∀ (s : State) (l : Launch), l.invalid = false → l.unplaceable = false →
    ∃ saved redo fresh, s.units l = saved ++ redo ++ fresh ∧
      (∀ u ∈ saved, ∀ x ∈ u.blks, ∃ y, x.2 = some y ∧ y ∈ s.saved ∧ y.block.launch = l.id ∧ y.block.blk = x.1) ∧
      (∀ u ∈ redo ++ fresh, ∃ b, u.blks = (List.range l.desc.quilt).map (fun i => (b / l.desc.quilt * l.desc.quilt + i, none))) ∧
      (fresh.map (fun u => u.blks.head?.map (·.1))).Pairwise (fun a b => a.getD 0 ≤ b.getD 0)) ∧
  (∀ (d : Desc) (b : Nat), (d.pieces b).Nodup ∧ ∀ p, p ∈ d.pieces b ↔
    ∃ f ∈ d.fps, f.2.2 ≠ 0 ∧ ∃ va, f.1 + b * f.2.1 ≤ va ∧ va < f.1 + b * f.2.1 + f.2.2 ∧ va / 65536 = p) ∧
  (∀ (s : State) (l : Launch) (u : WorkUnit), (∀ x ∈ u.blks, ∀ y, x.2 = some y → y.bound = none) →
    let ps := u.blks.flatMap (fun x => l.desc.pieces x.1)
    let homed (p k : Nat) : Prop := (s.placementHome l.asid p).1 = some k
    let cnt (k : Nat) : Nat := ps.countP (fun p => (s.placementHome l.asid p).1 == some k)
    let before (a b : Nat) : Prop := cnt b < cnt a ∨
      (cnt a = cnt b ∧ cnt a ≠ 0 ∧ ∃ p ∈ ps, homed p a ∧ ∀ r ∈ ps, homed r b → p ≤ r) ∨
      (cnt a = 0 ∧ cnt b = 0 ∧ (s.siteFree b < s.siteFree a ∨ (s.siteFree a = s.siteFree b ∧ a < b)))
    let moved : Prop := ∃ m ∈ s.migrations, m.1 = l.id ∧ ∃ x ∈ u.blks, x.1 = m.2.1
    (l.desc.affinity = true → l.unplaceable = false → s.siteOrder l u = [hCore l.desc.affin / 4]) ∧
    (l.desc.affinity = false ∨ l.unplaceable = true → ¬moved → (∀ p ∈ ps, p < 2 ^ 64) → ∃ all : List Nat, all.Nodup ∧ (∀ k, k ∈ all ↔ k < 16) ∧
      all.Pairwise before ∧ s.siteOrder l u = if l.desc.strict then all.take 1 else all) ∧
    ∀ k, s.siteFor l u = some k ↔ ∃ i : Nat, (s.siteOrder l u)[i]? = some k ∧ s.siteOpen l u k = true ∧ (s.fitSite l u [] [] k).isSome = true ∧
      ∀ j m : Nat, j < i → (s.siteOrder l u)[j]? = some m → s.siteOpen l u m = false ∨ s.fitSite l u [] [] m = none) ∧
  (∀ (s : State) (l : Launch) (u : WorkUnit) (gone : List (Nat × Nat)) (want cs : List Choice) (site : Nat), s.fitSite l u gone want site = some cs →
    cs.length = u.blks.length ∧ (∀ c ∈ cs, c.core / 4 = site) ∧ (∀ k, (cs.filter (fun c => c.core == k)).length ≤ 2) ∧
    (l.desc.affinity = true → l.unplaceable = false → (∀ x ∈ u.blks, x.2 = none) → ∀ c ∈ cs, c.core = hCore l.desc.affin)) ∧
  ∀ (s : State) (l : Launch) (blk site : Nat), (∀ k, risingFrom 0 (s.core k).records = true) → l.desc.affinity = false →
    let u : WorkUnit := ⟨l.id, [(blk, none)]⟩
    let held (k e : Nat) : Prop := ((s.core k).record e).state = 2
    let apart (a n b m : Nat) : Prop := n = 0 ∨ m = 0 ∨ a + n ≤ b ∨ b + m ≤ a
    let room (w : Choice) : Prop := (s.core w.core).fenced = false ∧ (s.site (w.core / 4)).fenced = false ∧
      w.slotb + l.desc.levels ≤ 16 ∧ w.spbase % 128 = 0 ∧ w.spbase / 128 + l.desc.scratch / 128 ≤ 16384 ∧ w.abase < 8 ∧ w.abase + l.desc.acc ≤ 8 ∧
      w.seamset < 16 ∧ w.entry < 64 ∧ ((s.core w.core).record w.entry).state = 0 ∧ w.ltag < 64 ∧
      (((s.core w.core).ltvalid.getLsbD w.ltag = true ∧ (s.core w.core).ltBytes w.ltag = l.ltBytes) ∨ s.ltNamed w.core w.ltag = false) ∧
      ∀ e, held w.core e → let h := (s.core w.core).record e
        apart w.slotb l.desc.levels h.slotb (s.levelsOf w.core e) ∧ apart (w.spbase / 128) (l.desc.scratch / 128) h.spbase h.spsize ∧
        apart w.abase l.desc.acc h.abase h.accn ∧ w.seamset ≠ h.seamset
    let local_ (k : Nat) : Nat := (l.desc.pieces blk).countP (fun p => match s.pieceHome l.asid p with
      | some (m, some v) => m * 4 + v == k
      | _ => false)
    let free (k : Nat) : Nat := 16 - ((((s.core k).records.filter (fun r => r.2.state == 2)).map (fun r => s.levelsOf k r.1)).sum)
    let better (a b : Nat) : Prop := local_ b < local_ a ∨ (local_ a = local_ b ∧ (free b < free a ∨ (free a = free b ∧ a ≤ b)))
    let may (w : Choice) : Prop := room w ∧ w.core / 4 = site ∧ ∀ z, room z → z.core / 4 = site → better w.core z.core
    (∀ w cs, s.fitSite l u [] [w] site = some cs ↔ cs = [w] ∧ may w) ∧
    (∀ cs, s.fitSite l u [] [] site = some cs → ∃ w, cs = [w] ∧ may w) ∧
    (s.fitSite l u [] [] site = none ↔ ∀ w, ¬(room w ∧ w.core / 4 = site))

/-- R41, R110, R256, R281, R292, R294, R356, R414, R442. BLOCK_END ends a block whose threads have exited and whose stores, commands and matrix entries
are complete, and no other: its record is FREE and its launch counts it; a double-faulted block that has come to rest is taken away
and counts in LOST. A save that fails is begun again elsewhere. CONTEXT_SAVE_COMPLETE keeps a stopped block's registers, scratchpad and units in its image and frees its record;
of the image's bytes at CTX it writes the bind record, each thread's PC and mode and registers, and the scratchpad as Tables 13.5 and
13.6 lay them out (where CTX lies is log 12), and no byte of DRAM beside the image's.
R291, R449 to R451. A quantum that has run out begins again, and where a unit of no lower priority has no room, quilts of the queue are
stopped on the site where it would go: the youngest (by the first dispatch of their youngest member), as few as give the room, and none where
all of them would not. Only the first unit that has no room is considered, on the first site of its order (log 38); when a stopped block is saved is
log 43. A migration whose copies do not complete in DRAINMAX is off, with its quilt. A quilt that has had no room for 200 µs reserves its site; a
site that stays reserved gives up its youngest long-lived quilt, or, with none that may move, reports the quilt. -/
def Obligations.BlocksEndAndRoomIsMade : Prop :=
  (∀ (s : State) (core e : Nat) (b : Block) (l : Launch), s.block? (bkOf core e) = some b → b.core = core → b.bslot = e → e < 64 →
    s.launch? b.launch = some l →
    let bk := bkOf core e
    let passed : Prop := (∀ c ∈ s.threads, tkBk c.1 = bk → c.2.exited = true) ∧ (∀ r ∈ s.reqs, tkBk r.tk ≠ bk) ∧
      (∀ x ∈ s.sites, ∀ r ∈ x.2.running, tkBk r.cmd.tk ≠ bk) ∧ (∀ q ∈ (s.core core).queues, ∀ c ∈ q.2, tkBk c.tk ≠ bk) ∧
      b.savedCmds = [] ∧ b.savedEntries = [] ∧ ∀ y ∈ (s.core core).mxq, tkBk y.tk ≠ bk
    let gone (s' : State) : Prop := s'.block? bk = none ∧ (∀ tk, tkBk tk = bk → s'.thread? tk = none) ∧
      (∀ tk, tkBk tk ≠ bk → s'.thread? tk = s.thread? tk) ∧ ((s'.core core).record e).state = 0
    (b.doubleFault = false → b.discard = false → ¬passed → Leaves (.blockEnd core e) s s) ∧
    (b.doubleFault = false → b.discard = false → passed → ∃ s', Leaves (.blockEnd core e) s s' ∧ gone s' ∧
      s'.launch? b.launch = some { l with ended := l.ended ++ [b.blk] }) ∧
    (b.doubleFault = true → s.stopReady bk b = true → ∃ s', Leaves (.blockEnd core e) s s' ∧ gone s' ∧
      s'.launch? b.launch = some { l with lost := l.lost + 1, lostBlks := l.lostBlks ++ [b.blk], doubleFault := true }) ∧
    (b.doubleFault = true ∨ b.discard = true → s.stopReady bk b = false → Leaves (.blockEnd core e) s s) ∧
    (b.doubleFault = false → b.discard = true → s.stopReady bk b = true → ∃ s', Leaves (.blockEnd core e) s s' ∧ gone s' ∧
      s'.launch? b.launch = some l) ∧
    (∀ ok, b.stopping = false ∨ b.halted = true ∨ b.discard = true ∨ b.doubleFault = true ∨ s.stopReady bk b = false →
      Leaves (.contextSaveComplete core e ok) s s) ∧
    (b.stopping = true → b.halted = false → b.discard = false → b.doubleFault = false → s.stopReady bk b = true →
      Leaves (.contextSaveComplete core e false) s { s with badAreas := s.badAreas ++ [s.nextCtx] }) ∧
    (let ctx := s.nextCtx
     s.memOk → s.linesOk → s.ownDram ctx = true → (∀ a, ctx ≤ a → a < ctx + 2 ^ 23 → s.vaultLost a = false) →
      (s.site (paSite ctx)).quadOk (frameOf (paOfs ctx)) = true → s.unreachable (core / 4) ctx = none →
      b.accn ≤ 8 → b.desc.regs ≤ 128 → b.spsize ≤ 2 ^ 21 → (s.threadsOf bk).length ≤ 3072 →
     b.stopping = true → b.halted = false → b.doubleFault = false → b.discard = false → s.stopReady bk b = true →
      (∀ x ∈ s.saved, x.ctx ≠ ctx) → (∀ i, (s.slice core i).failed = false) → (s.core core).fenced = false →
      (∀ c ∈ s.threads, tkBk c.1 = bk → c.2.pends = [] ∧ c.2.flagsDue = []) →
      ∃ s' x, exec (.contextSaveComplete core e true) s = .next s' ∧ gone s' ∧ s'.launch? b.launch = some l ∧ x ∈ s'.saved ∧ x.ctx = ctx ∧
        x.block = b ∧ x.record = (s.core core).record e ∧
        (∀ k o, Memory.read (s'.core k).scratch o = Memory.read (s.core k).scratch o) ∧
        (x.total ≤ 2 ^ 23 → (∀ a, ¬(ctx ≤ a ∧ a < ctx + x.total) → s'.homeByte a = s.homeByte a) ∧
         (∀ i, i < 8 → s'.homeByte (ctx + i) = (leBytes 8 x.record.w0.toNat).getD i 0 ∧
          s'.homeByte (ctx + 8 + i) = (leBytes 8 x.record.w1.toNat).getD i 0 ∧
          s'.homeByte (ctx + 16 + i) = (leBytes 8 x.record.w2.toNat).getD i 0) ∧
         (∀ (j : Nat) (thr : Nat) (u : Thread), x.threads[j]? = some (thr, u) →
          (∀ i, i < 8 → s'.homeByte (x.at_ .threads + 256 * j + i) =
            (leBytes 8 (u.recordPc.toNat + if u.mode = .trap then 2 ^ 63 else 0)).getD i 0) ∧
          ∀ r i, r < b.desc.regs → i < 4 →
            s'.homeByte (x.at_ .registers + 4 * (b.desc.regs * j + r) + i) = (leBytes 4 (u.reg r).toNat).getD i 0) ∧
         ∀ o, o < b.spsize → s'.homeByte (x.at_ .scratchpad + o) = Memory.read x.scratch o) ∧
        (∀ thr t, thr < 4096 → s.thread? (bk * 4096 + thr) = some t → ∃ u, (thr, u) ∈ x.threads ∧ u.pc = t.pc ∧
          u.mode = t.mode ∧ u.v = t.v ∧ u.p = t.p ∧ u.h = t.h ∧ u.tpc = t.tpc ∧ u.tcause = t.tcause ∧ u.tval = t.tval ∧ u.tinfo = t.tinfo ∧
          u.depth = t.depth ∧ u.ret = t.ret ∧ u.skeins = t.skeins ∧ u.trapSkein = t.trapSkein ∧ u.pst = t.pst ∧ u.marks = t.marks ∧
          u.reports = t.reports ∧ u.exited = t.exited) ∧
        (∀ o, o < b.spsize → Memory.read x.scratch o = Memory.read (s.core core).scratch (b.spbase + o)) ∧
        (∀ r ∈ s.reqs, tkBk r.tk = bk → r ∈ x.stores) ∧
        ∀ q ∈ (s.core core).queues, ∀ c ∈ q.2, tkBk c.tk = bk → c ∈ x.cmds)) ∧
  (∀ (s : State), risingFrom 0 s.blocks = true →
    let late (d : Nat) : Prop := d ≤ s.clk
    let stops (s' : State) (gs : List (List (Nat × Block))) : Prop := ∀ g ∈ gs, ∀ c ∈ g, ∃ b, s'.block? c.1 = some b ∧ b.stopping = true
    let age (g : List (Nat × Block)) : Nat := (g.map (fun c => c.2.born)).foldl max 0
    (∀ site p, (s.groupsOn site p).Pairwise (fun a b => age b ≤ age a) ∧ ∀ g, g ∈ s.groupsOn site p ↔
      (∃ c ∈ s.blocks, c.2.core / 4 = site ∧ p c.2 = true ∧
        g = s.blocks.filter (fun d => d.2.launch == c.2.launch && d.2.blk / d.2.desc.quilt == c.2.blk / c.2.desc.quilt)) ∧
      ∀ c ∈ g, c.2.stopping = false ∧ c.2.discard = false ∧ c.2.doubleFault = false) ∧
    (∀ q, let rivals (l : Launch) (u : WorkUnit) : Prop := l ∈ s.launchesOf l.queue ∧ l.queue ∈ s.busyQueues ∧ l.queue ≠ q ∧
        (s.queue l.queue).en = true ∧ (s.queue q).prio ≤ (s.queue l.queue).prio ∧ u ∈ s.units l ∧ s.siteFor l u = none
      (s.waitingFor q = none ↔ ∀ l u, ¬rivals l u) ∧ ∀ l u, s.waitingFor q = some (l, u) → rivals l u) ∧
    (∀ q, (∀ d, (s.queue q).quantum = some d → s.clk < d) → Leaves (.quantumExpiry q) s s) ∧
    (∀ q d, (s.queue q).quantum = some d → late d →
      let s1 := s.setQueue q { s.queue q with quantum := some (s.clk + (s.queue q).quant * 2100) }
      let mine (b : Block) : Bool := match s.launch? b.launch with | some k => k.queue == q | none => false
      (s1.waitingFor q = none → Leaves (.quantumExpiry q) s s1) ∧
      (∀ l u site, s1.waitingFor q = some (l, u) → (s1.siteOrder l u).head? = some site →
        let gs := s1.groupsOn site mine
        let fits (k : Nat) : Prop := (s1.fitSite l u (s1.givenUp site ++ (gs.take k).flatMap (fun g => g.map (fun c => (c.2.core, c.2.bslot)))) [] site).isSome = true
        ((∀ k, k ≤ gs.length → ¬fits k) → Leaves (.quantumExpiry q) s s1) ∧
        ∀ k, k ≤ gs.length → fits k → (∀ j, j < k → ¬fits j) →
          ∃ s', Leaves (.quantumExpiry q) s s' ∧ s' = { s1 with blocks := s'.blocks, threads := s'.threads, taken := s'.taken } ∧
            (s.taken = [] → s'.threads = s.threads ∧ s'.taken = []) ∧ stops s' (gs.take k) ∧
            ∀ i c, s.block? i = some c → (∀ g ∈ gs.take k, (i, c) ∉ g) → s'.block? i = some c)) ∧
    (∀ core e b, s.block? (bkOf core e) = some b → (∀ d, b.pause = some d → s.clk < d) → Leaves (.drainmaxExpiry core e) s s) ∧
    (∀ core e b d, s.block? (bkOf core e) = some b → b.pause = some d → late d →
      let mate (c : Block) : Prop := c.launch = b.launch ∧ c.blk / c.desc.quilt = b.blk / b.desc.quilt
      ∃ s', Leaves (.drainmaxExpiry core e) s s' ∧ s' = { s with blocks := s'.blocks, migrations := s'.migrations } ∧
        (∀ m, m ∈ s'.migrations ↔ m ∈ s.migrations ∧ ¬(m.1 = b.launch ∧ m.2.1 / b.desc.quilt = b.blk / b.desc.quilt)) ∧
        (∀ k c, s.block? k = some c → mate c → s'.block? k = some { c with pause := none, skippedAt := some s.clk }) ∧
        ∀ k c, s.block? k = some c → ¬mate c → s'.block? k = some c) ∧
    (∀ site launch quilt l u since, s.quiltUnit launch quilt = some (l, u) →
      Sparse.get? s.quiltSince (launch * 2 ^ 32 + quilt) = some since → (s.siteOrder l u).head? = some site →
      (s.clk < since + 420000 ∨ (s.site site).reservation ≠ none → Leaves (.quiltReservation site launch quilt) s s) ∧
      (since + 420000 ≤ s.clk → (s.site site).reservation = none → ∃ s', Leaves (.quiltReservation site launch quilt) s s' ∧
        s'.site site = { s.site site with reservation := some ⟨launch, quilt, s.clk, false, false⟩ } ∧
        (∀ k, k ≠ site → s'.site k = s.site k) ∧ s'.blocks = s.blocks ∧ s'.threads = s.threads ∧
        ∀ i k, i < 4 → let c := s.core (site * 4 + i)
          (s'.core (site * 4 + i)).record k =
            if (c.record k).state = 1 ∧ c.preFor l (s.graphOf l) k = false then (c.record k).withState 0 else c.record k)) ∧
    (∀ site, (s.site site).reservation = none → Leaves (.reservationClearing site) s s) ∧
    ∀ site r l u, (s.site site).reservation = some r → s.quiltUnit r.launch r.quilt = some (l, u) →
      let s1 := s.setSite site { s.site site with reservation := some { r with clearing := true } }
      let gs := (s1.groupsOn site (fun _ => true)).filter (fun g => g.all (fun c => s1.movable c.1 c.2 &&
        decide (c.2.since + 2100000 ≤ s.clk) && (match c.2.skippedAt with | some t => decide (t + 2100000 ≤ s.clk) | none => true)))
      let busy : Prop := ∃ c ∈ s.blocks, c.2.core / 4 = site ∧ (c.2.stopping = true ∨ c.2.pause.isSome = true)
      (s.clk < r.since + 4200000 ∨ busy ∨ (s.fitSite l u [] [] site).isSome = true → Leaves (.reservationClearing site) s s) ∧
      (r.since + 4200000 ≤ s.clk → ¬busy → s.fitSite l u [] [] site = none →
        (gs = [] → r.reported = true → Leaves (.reservationClearing site) s s1) ∧
        (gs = [] → r.reported = false → Leaves (.reservationClearing site) s
          ((s.setSite site { s.site site with reservation := some { r with clearing := true, reported := true } }).emit
            (.report "quilt cannot be placed" [r.launch, r.quilt, site]))) ∧
        (∀ g rest, gs = g :: rest → (∀ c ∈ g, s.copiesOf c.1 c.2 = false) → g ≠ [] → ∃ s', Leaves (.reservationClearing site) s s' ∧
          s' = { s1 with blocks := s'.blocks, threads := s'.threads, taken := s'.taken } ∧
          (s.taken = [] → s'.threads = s.threads ∧ s'.taken = []) ∧ stops s' [g]) ∧
        (∀ g rest, gs = g :: rest → (∃ c ∈ g, s.copiesOf c.1 c.2 = true) → ∃ s', Leaves (.reservationClearing site) s s' ∧
          s' = { s1 with blocks := s'.blocks } ∧
          ∀ c ∈ g, s'.block? c.1 = some { c.2 with pause := some (s.clk + s.drainMax * 2100) })))

/-! ### The outside (chapter 15) -/

/-- R47, R55, R62, R276, R286, R287, R311, R315, R319, R338, R412, R466. Device registers. A byte of the frame mode table writes its two entries, reserved
values apart, raises GEN, and leaves memory as it reads unless a frame that is or becomes vault-local changes, when its quad alone
loses its contents. An aligned 8-byte write of firmware or of privileged code acts as the write of that register, a narrower
one keeps the other bytes; read-only registers, and MEASURE, keep their values. The control node reads and writes them the same way,
with a reply; of the registers it writes, only the queue registers and the inbound filter change; a PA that is none of this device's
registers, or that its edge die cannot reach, is refused (log 56). -/
def Obligations.DeviceRegisters : Prop :=
  (∀ (s : State) (site i : Nat) (v : Byte), site < 16 → i < 16384 → s.memOk → s.linesOk →
    let x := s.site site
    let new (F : Nat) : BitVec 4 :=
      let n : BitVec 4 := if F % 2 = 0 then v.extractLsb' 0 4 else v.extractLsb' 4 4
      if F / 2 = i ∧ n.toNat ∈ [0, 1, 4, 5, 6, 7] then n else Sparse.getD x.modes F 0
    let same : Prop := ∀ F, new F = Sparse.getD x.modes F 0
    let torn : Prop := ∃ F, new F ≠ Sparse.getD x.modes F 0 ∧ (4 ≤ (new F).toNat ∨ 4 ≤ (Sparse.getD x.modes F 0).toNat)
    (same → Leaves (.frameModeWrite site i v) s s) ∧
    (¬same → ∃ s', exec (.frameModeWrite site i v) s = .next s' ∧ (∀ F, Sparse.getD (s'.site site).modes F 0 = new F) ∧
      (s'.site site).gen0 = (x.gen0 + 1) % 2 ^ 16 ∧ (s'.site site).gen1 = (x.gen1 + 1) % 2 ^ 16 ∧
      (∀ k, k ≠ site → s'.site k = s.site k) ∧ s'.threads = s.threads ∧ s'.blocks = s.blocks ∧
      (∀ pa, ¬torn ∨ pa / 2 ^ 23 ≠ (s.devno * 2 ^ 42 + site * 2 ^ 36 + i / 2 * 2 ^ 23) / 2 ^ 23 → s'.homeByte pa = s.homeByte pa) ∧
      ∀ c o, Memory.read (s'.core c).scratch o = Memory.read (s.core c).scratch o)) ∧
  (∀ (s : State) (firmware : Bool) (site k j : Nat) (v : DWord), site < 16 →
    let bs := leBytes 8 v.toNat
    let at_ (ofs : Nat) : Instr := .deviceRegisterWrite firmware (s.devno * 2 ^ 42 + 2 ^ 40 + site * 2 ^ 36 + ofs) bs
    let acts (ofs : Nat) (i : Instr) : Prop := exec (at_ ofs) s = exec i s
    (k < 512 → acts (0x200000 + 64 * k) (.qcfgWrite (site * 512 + k) v) ∧ acts (0x200008 + 64 * k) (.qringWrite (site * 512 + k) v) ∧
      acts (0x200010 + 64 * k) (.qtailWrite (site * 512 + k) v) ∧ Leaves (at_ (0x200018 + 64 * k)) s s ∧
      acts (0x200020 + 64 * k) (.qtrigWrite (site * 512 + k) v) ∧ acts (0x200028 + 64 * k) (.qgraphWrite (site * 512 + k) firmware v) ∧
      Leaves (at_ (0x200030 + 64 * k)) s s) ∧
    (k < 4 → j < 64 →
      let core := site * 4 + k
      let c := s.core core
      let r := c.record j
      let keeps (r : BindRecord) : State := s.setCore core { c with records := Sparse.set c.records j r }
      acts (0x300000 + 0x800 * k + 32 * j) (.bindRecordWrite core j v) ∧
      Leaves (at_ (0x300008 + 0x800 * k + 32 * j)) s (keeps { r with w1 := v }) ∧
      Leaves (at_ (0x300010 + 0x800 * k + 32 * j)) s (keeps { r with w2 := v }) ∧
      Leaves (at_ (0x300018 + 0x800 * k + 32 * j)) s (keeps { r with w3 := v }) ∧
      Leaves (at_ (0x330000 + 8 * k)) s (s.setCore core { c with ltvalid := v }) ∧
      ∀ o, o < 384 → o % 8 = 0 → (c.ltBytes j).length = 384 → ∃ s', Leaves (at_ (0x340000 + 0x6000 * k + 384 * j + o)) s s' ∧
        ∀ i, i < 384 → ((s'.core core).ltBytes j).getD i 0 = if o ≤ i ∧ i < o + 8 then bs.getD (i - o) 0 else (c.ltBytes j).getD i 0) ∧
    (k < 128 → Leaves (at_ (0x500000 + 8 * k)) s s) ∧
    (k < 1024 → site = 0 → Leaves (at_ (0x600000 + 8 * k)) s
      (if firmware then { s with filter := Sparse.set s.filter k (v.toNat % 8) } else s))) ∧
  (∀ (s : State) (firmware : Bool) (pa n : Nat) (bs : List Byte), bs.length = n → n ∈ [1, 2, 4] → pa % n = 0 →
    ¬(0x100000 ≤ paOfs pa ∧ paOfs pa < 0x104000) →
    let old := s.devRead (pa / 8 * 8) 8
    exec (.deviceRegisterWrite firmware pa bs) s =
      exec (.deviceRegisterWrite firmware (pa / 8 * 8) (old.take (pa % 8) ++ bs ++ old.drop (pa % 8 + n))) s) ∧
  (∀ (s : State) (port site ofs k : Nat) (v : DWord), site < 16 → ofs % 8 = 0 → ofs < 2 ^ 36 → s.devno < 1024 →
    let pa := s.devno * 2 ^ 42 + 2 ^ 40 + site * 2 ^ 36 + ofs
    let queues : Prop := 0x200000 ≤ ofs ∧ ofs < 0x208000
    let bars (x n : Nat) : Prop := Leaves (.controlPortRegisterWrite port x v) s (s.emit (.report "refused" [port, x, n])) ∧
      Leaves (.controlPortRegisterRead port x) s (s.emit (.report "refused" [port, x, n]))
    (∀ x, x / 2 ^ 40 % 4 ≠ 1 ∨ x / 2 ^ 42 % 1024 ≠ s.devno → bars x 5) ∧
    (s.cutOff (if port = 0 then 15 else 7) site = true → bars pa 7) ∧
    (s.cutOff (if port = 0 then 15 else 7) site = false →
    (¬queues → ¬(site = 0 ∧ 0x600000 ≤ ofs ∧ ofs < 0x602000) →
      Leaves (.controlPortRegisterWrite port pa v) s (s.emit (.reply port 0))) ∧
    (queues →
      ∀ u, exec (.deviceRegisterWrite false pa (leBytes 8 v.toNat)) s = .next u →
        exec (.controlPortRegisterWrite port pa v) s = .next (u.emit (.reply port 0))) ∧
    (ofs = 0x600000 + 8 * k → k < 1024 → site = 0 → Leaves (.controlPortRegisterWrite port pa v) s
      ({ s with filter := Sparse.set s.filter k (v.toNat % 8) }.emit (.reply port 0))) ∧
    (let reads (x : Nat) : Prop := Leaves (.controlPortRegisterRead port pa) s (s.emit (.reply port x))
     let q := s.queue (site * 512 + k)
     let core := s.core (site * 4 + k / 64)
     let r := core.record (k % 64)
     (k < 512 → ofs = 0x200000 + 64 * k → reads (q.quant * 2 ^ 32 + q.asid * 2 ^ 16 + (if q.en then 8 else 0) + q.prio)) ∧
     (k < 512 → ofs = 0x200008 + 64 * k → reads (q.base + q.log2n)) ∧
     (k < 512 → ofs = 0x200010 + 64 * k → reads q.tail) ∧ (k < 512 → ofs = 0x200018 + 64 * k → reads q.head) ∧
     (k < 512 → ofs = 0x200020 + 64 * k → reads q.plist) ∧ (k < 512 → ofs = 0x200028 + 64 * k → reads q.gid) ∧
     (k < 512 → ofs = 0x200030 + 64 * k → reads ((if q.refused then 256 else 0) + (q.work.filter (·.isSome)).length)) ∧
     (k < 256 → ofs = 0x300000 + 32 * k → reads r.w0.toNat) ∧ (k < 256 → ofs = 0x300008 + 32 * k → reads r.w1.toNat) ∧
     (k < 256 → ofs = 0x300010 + 32 * k → reads r.w2.toNat) ∧ (k < 256 → ofs = 0x300018 + 32 * k → reads r.w3.toNat) ∧
     (k < 4 → ofs = 0x330000 + 8 * k → reads (s.core (site * 4 + k)).ltvalid.toNat) ∧
     (k < 128 → ofs = 0x500000 + 8 * k → site = 0 → reads (leNat ((s.measureBytes.drop (8 * k)).take 8))) ∧
     (k < 1024 → ofs = 0x600000 + 8 * k → site = 0 → reads (Sparse.getD s.filter k 0)))))

/-- R224, R313 to R315. An access of another device is performed at its home slice, or read from a register, if the filter entry of its source lets
it pass: a read with RD, a store or reduction with WR, an atomic with both, a register with REG outside the closed ranges. Else it is
counted for its source, answered as refused, and nothing else changes. Of a store, bytes that a writer of higher precedence has written in the same
cycle keep its value (R97: precedence class 0); a read-modify-write comes after the plain writes of its cycle (R223). -/
def Obligations.InboundAccesses : Prop :=
  ∀ (s : State) (port src pa : Nat) (act : Action), s.memOk → s.linesOk →
    let e := Sparse.getD s.filter src 0
    let i : Instr := .inboundFilterAccess port src pa act
    let ofs := pa % 2 ^ 36
    let n := act.len
    let regs : Bool := pa / 2 ^ 40 % 4 == 1
    let closed : Bool := ([(0x100000, 0x104000), (0x200000, 0x208000), (0x300000, 0x302000), (0x330000, 0x330020), (0x340000, 0x358000)] ++
      (if paSite pa = 0 then [(0x500000, 0x500400), (0x600000, 0x602000)] else [])).any (fun r => decide (ofs < r.2 ∧ r.1 < ofs + n))
    let may : Bool :=
      if regs then e.testBit 2 && !closed
      else match act with
      | .load _ | .refill _ => e.testBit 0
      | .store _ | .rmw _ _ _ false => e.testBit 1
      | .rmw _ _ _ true | .cas _ _ _ => e.testBit 0 && e.testBit 1
    let whole : Prop := s.ownDram pa = true ∧ pa % 128 + n ≤ 128 ∧ (s.site (paSite pa)).quadOk (frameOf (paOfs pa)) = true ∧
      s.vaultLost pa = false ∧ s.poisonIn pa n = none ∧ s.cutOff (portSite port) (paSite pa) = false
    let later (a : Nat) : Bool := s.cycleWrites.any (fun w => decide (port < w.rank ∧ w.space = 0 ∧ w.at_ ≤ a ∧ a < w.at_ + w.n))
    let old := leNat ((List.range n).map (fun k => s.homeByte (pa + k)))
    let writes (s' : State) (late : Nat → Bool) (bs : List Byte) : Prop :=
      (∀ a, s'.homeByte a = if pa ≤ a ∧ a < pa + n ∧ late a = false then bs.getD (a - pa) 0 else s.homeByte a) ∧
      ∀ c o, Memory.read (s'.core c).scratch o = Memory.read (s.core c).scratch o
    (may = false → Leaves i s ({ s with refusedFrom := Sparse.set s.refusedFrom src (Sparse.getD s.refusedFrom src 0 + 1) }.emit
      (.report "refused" [port, src, pa, 5]))) ∧
    (∀ k, may = true → regs = false → whole → act = .load k → ∃ s', Leaves i s s' ∧ s'.out = s.out ++ [.reply port old] ∧
      s'.threads = s.threads ∧ s'.blocks = s.blocks) ∧
    (∀ bs, may = true → regs = false → whole → act = .store bs → ∃ s', exec i s = .next s' ∧ writes s' later bs ∧ s'.out = s.out ∧
      s'.threads = s.threads ∧ s'.blocks = s.blocks) ∧
    (∀ o w b r v, may = true → regs = false → whole → act = .rmw o w b r → w = 32 ∨ w = 64 → redOp o w old b = (v, 0) → v < 2 ^ w →
      ∃ s', exec i s = .next s' ∧ writes s' (fun _ => false) (leBytes n v) ∧ s'.out = s.out ++ (if r then [.reply port old] else []) ∧
        s'.threads = s.threads) ∧
    (∀ k x y, may = true → regs = false → whole → act = .cas k x y → k ∈ [4, 8, 16] → ∃ s', exec i s = .next s' ∧
      (old = x → writes s' (fun _ => false) (leBytes n y)) ∧ (old ≠ x → SameBytes s s') ∧ s'.out = s.out ++ [.reply port old] ∧
      s'.threads = s.threads) ∧
    (∀ k, may = true → regs = true → s.cutOff (portSite port) (paSite pa) = false → act = .load k →
      Leaves i s (s.emit (.reply port (leNat (s.devRead pa k))))) ∧
    (∀ bs, may = true → regs = true → act = .store bs → Leaves i s s) ∧
    (∀ k, may = true → s.cutOff (portSite port) (paSite pa) = true → act = .load k →
      Leaves i s (s.emit (.report "poison" [port, src, pa, 7]))) ∧
    (∀ bs, may = true → s.cutOff (portSite port) (paSite pa) = true → act = .store bs → Leaves i s s)

/-- R316, R317. Scale-out. A message within the registered region of its queue pair is performed at home slices, and its completion entry follows
its data; an RDMA READ and a doorbell's work read memory and leave, an outgoing READ or atomic leaves as a request; an atomic answers the old 8 bytes. One without a queue pair, out
of its region, of sites that its port cannot reach or without a buffer changes nothing and is reported. Software sets a pair up, gives
it its region and posts its buffers (how it does is log 28). -/
def Obligations.ScaleOut : Prop :=
  ∀ (s : State) (port qp : Nat), s.memOk → s.linesOk →
    let refused (i : Instr) (va n : Nat) : Prop := Leaves i s (s.emit (.report "scale-out refused" [qp, va, n]))
    (Sparse.get? s.qps qp = none → ∀ va bs imm n old new b,
      refused (.rdmaWrite port qp va bs imm) va bs.length ∧ refused (.rdmaRead port qp va n) va n ∧
      refused (.rdmaSend port qp bs) 0 bs.length ∧ refused (.rdmaCompareAndSwap port qp va old new) va 8 ∧
      refused (.rdmaFetchAndAdd port qp va b) va 8 ∧ refused (.doorbellWrite port qp (.send va n)) va n ∧
      refused (.doorbellWrite port qp (.region va n)) va n ∧ refused (.doorbellWrite port qp (.receive va n)) va n ∧
      refused (.doorbellWrite port qp (.answer va bs)) va bs.length) ∧
    (∀ bytes, Leaves (.doorbellWrite port qp (.ask bytes)) s (s.emit (.rdma qp bytes))) ∧
    (∀ asid cqVa, Leaves (.doorbellWrite port qp (.setUp asid cqVa)) s
      { s with qps := Sparse.set s.qps qp ⟨asid, 0, 0, [], cqVa, 0⟩ }) ∧
    ∀ q, Sparse.get? s.qps qp = some q →
      let inside (va n : Nat) : Prop := q.regionVa ≤ va ∧ va + n ≤ q.regionVa + q.regionLen ∧ n ≤ 2 ^ 31
      let last : Prop := ∀ w ∈ s.cycleWrites, w.space = 0 → w.rank ≤ 18 + port
      let lies (u : State) (va n pa : Nat) : Prop := va % 128 + n ≤ 128 ∧ pa % 128 = va % 128 ∧ (∃ unc, u.schedPa q.asid va true = some (pa, unc)) ∧
        s.ownDram pa = true ∧ s.vaultLost pa = false ∧ (s.site (paSite pa)).quadOk (frameOf (paOfs pa)) = true ∧
        s.cutOff (if port < 2 then 15 else 7) (paSite pa) = false
      let cq := q.cqVa + 16 * q.cqNext
      let writes (s' : State) (pa cpa : Nat) (bs : List Byte) : Prop :=
        (∀ k, k < bs.length → s'.homeByte (pa + k) = bs.getD k 0) ∧
        (∀ a, ¬(pa ≤ a ∧ a < pa + bs.length) → ¬(cpa ≤ a ∧ a < cpa + 16) → s'.homeByte a = s.homeByte a) ∧
        (∀ c o, Memory.read (s'.core c).scratch o = Memory.read (s.core c).scratch o) ∧ s'.threads = s.threads ∧ s'.blocks = s.blocks
      let apart (pa n cpa : Nat) : Prop := pa + n ≤ cpa ∨ cpa + 16 ≤ pa
      (∀ va len, Leaves (.doorbellWrite port qp (.region va len)) s
        { s with qps := Sparse.set s.qps qp { q with regionVa := va, regionLen := len } }) ∧
      (∀ va n, Leaves (.doorbellWrite port qp (.receive va n)) s
        { s with qps := Sparse.set s.qps qp { q with recvVa := q.recvVa ++ [(va, n)] } }) ∧
      (∀ va bs pa cpa, last → bs ≠ [] → inside va bs.length → lies s va bs.length pa → lies (s.portVa (18 + port) q.asid va bs) cq 16 cpa →
        apart pa bs.length cpa → ∃ s', exec (.doorbellWrite port qp (.answer va bs)) s = .next s' ∧ writes s' pa cpa bs ∧ s'.out = s.out ∧
          Sparse.get? s'.qps qp = some { q with cqNext := q.cqNext + 1 }) ∧
      (∀ va bs, ¬inside va bs.length → refused (.doorbellWrite port qp (.answer va bs)) va bs.length) ∧
      (∀ va bs imm pa cpa, last → bs ≠ [] → inside va bs.length → lies s va bs.length pa → lies (s.portVa (18 + port) q.asid va bs) cq 16 cpa → apart pa bs.length cpa →
        ∃ s', exec (.rdmaWrite port qp va bs imm) s = .next s' ∧ writes s' pa cpa bs ∧
          Sparse.get? s'.qps qp = some { q with cqNext := q.cqNext + 1 } ∧
          s'.out = s.out ++ (match imm with | some w => [.report "immediate" [qp, w.toNat]] | none => [])) ∧
      (∀ va bs imm, ¬inside va bs.length → refused (.rdmaWrite port qp va bs imm) va bs.length) ∧
      (∀ va n bs, inside va n → s.portReaches (18 + port) q.asid va n false = true → s.readVa q.asid va n = some bs →
        ∃ r, OnlyReads s r ∧ Leaves (.rdmaRead port qp va n) s (r.emit (.rdma qp bs)) ∧
          Leaves (.doorbellWrite port qp (.send va n)) s (r.emit (.rdma qp bs))) ∧
      (∀ va n, ¬inside va n ∨ s.portReaches (18 + port) q.asid va n false = false →
        refused (.rdmaRead port qp va n) va n ∧ refused (.doorbellWrite port qp (.send va n)) va n) ∧
      (∀ va n rest bs pa cpa, last → q.recvVa = (va, n) :: rest → bs ≠ [] → bs.length ≤ n → lies s va bs.length pa →
        lies (s.portVa (18 + port) q.asid va bs) cq 16 cpa →
        apart pa bs.length cpa → ∃ s', exec (.rdmaSend port qp bs) s = .next s' ∧ writes s' pa cpa bs ∧ s'.out = s.out ∧
          Sparse.get? s'.qps qp = some { q with recvVa := rest, cqNext := q.cqNext + 1 }) ∧
      (∀ bs, q.recvVa = [] → refused (.rdmaSend port qp bs) 0 bs.length) ∧
      (∀ va n rest bs, q.recvVa = (va, n) :: rest → n < bs.length → refused (.rdmaSend port qp bs) va bs.length) ∧
      ∀ va pa b old new, va % 8 = 0 → inside va 8 → lies s va 8 pa →
        let bs := (List.range 8).map (fun k => s.homeByte (pa + k))
        let x : DWord := BitVec.ofNat 64 (leNat bs)
        let done (i : Instr) (y : DWord) : Prop := ∃ s', exec i s = .next s' ∧ s'.out = s.out ++ [.rdma qp bs] ∧
          (∀ a, s'.homeByte a = if pa ≤ a ∧ a < pa + 8 then y.extractLsb' (8 * (a - pa)) 8 else s.homeByte a) ∧
          (∀ c o, Memory.read (s'.core c).scratch o = Memory.read (s.core c).scratch o) ∧ s'.threads = s.threads
        done (.rdmaFetchAndAdd port qp va b) (x + b) ∧ done (.rdmaCompareAndSwap port qp va old new) (if x = old then new else x)

/-- R203, R311, R319, R363, R364. The debugger halts a block: its threads stop where they are, with a trap that was being taken, or that was
taken in this very cycle, still pending, and once its accesses have come to an end a record of each leaves; a resume lets them go on.
Of a halted thread it reads the record of Table 13.6 and writes it (what a cleared bit of byte 39 does is log 27); of no other. Arming
is a flag, and a nonce is answered with the report of Table 15.3, signed (SHAKE256 is that of FIPS 202, the signature itself open). -/
def Obligations.Debugger : Prop :=
  (∀ (s : State) (core e : Nat) (b : Block), s.block? (bkOf core e) = some b →
    let bk := bkOf core e
    let mine := s.threads.filter (fun c => tkBk c.1 == bk)
    (b.halted = true → Leaves (.debuggerHalt core e) s s) ∧
    (b.halted = false → s.accessStill bk = false → ∃ s' c, Leaves (.debuggerHalt core e) s s' ∧ s'.block? bk = some c ∧
      c = { b with halted := true, haltSent := false, trapSkeins := c.trapSkeins } ∧ (s.taken = [] → c.trapSkeins = b.trapSkeins) ∧
      s'.out = s.out ∧ (s.taken = [] → s'.threads = s.threads)) ∧
    (b.halted = false → s.accessStill bk = true → risingFrom 0 s.threads = true → ∃ s' rs c, Leaves (.debuggerHalt core e) s s' ∧
      s'.block? bk = some c ∧ c = { b with halted := true, haltSent := true, trapSkeins := c.trapSkeins } ∧
      (s.taken = [] → c.trapSkeins = b.trapSkeins) ∧ s'.out = s.out ++ rs ∧
      rs.length = (mine.filter (fun c => !c.2.exited)).length ∧ (∀ m ∈ rs, ∃ r, m = .halt r ∧ r.length = 32) ∧
      (∀ tk, tkBk tk ≠ bk → s'.thread? tk = s.thread? tk) ∧
      (∀ tk t x, tkBk tk = bk → s.thread? tk = some t → Sparse.get? s.taken tk = some x → t.mode = .trap → t.pendTrap = none →
        ∃ u, s'.thread? tk = some u ∧ u.mode = .user ∧ u.pc = x.pc ∧ u.tpc = x.tpc ∧ u.tcause = x.tcause ∧ u.tval = x.tval ∧
          u.tinfo = x.tinfo ∧ u.h = x.h ∧ u.trapSkein = none ∧ u.pendFault = some x.info ∧ u.trapNext = x.trapNext ∧ u.reports = x.reports) ∧
      ∀ tk t, tkBk tk = bk → s.thread? tk = some t → Sparse.get? s.taken tk = none ∨ t.mode = .user → ∃ u, s'.thread? tk = some u ∧
        u = { t with pendFault := u.pendFault, pendTrap := none, walkFail := none, wait := u.wait } ∧
        u.pendFault = match t.pendTrap with | some x => some x.1 | none => t.pendFault) ∧
    ∃ s', Leaves (.debuggerResume core e) s s' ∧ s'.block? bk = some { b with halted := false } ∧
      (∀ tk, tkBk tk ≠ bk → s'.thread? tk = s.thread? tk) ∧
      ∀ tk t, tkBk tk = bk → s.thread? tk = some t →
        s'.thread? tk = some (if t.wait = .halted then { t with wait := .none } else t)) ∧
  (∀ (s : State) (tk : Nat) (t : Thread) (b : Block), s.thread? tk = some t → s.block? (tkBk tk) = some b →
    let halted : Prop := t.wait = .halted ∨ (b.halted = true ∧ b.haltSent = true)
    let bar : Prop := ∃ tr k, t.wait = .bar tr k
    let num (r : List Nat) (i n : Nat) : Nat := leNat (((r.drop i).take n).map (BitVec.ofNat 8))
    (¬halted → Leaves (.threadRecordRead tk) s s ∧ ∀ bs, Leaves (.threadRecordWrite tk bs) s s) ∧
    (halted → t.depth ≤ 1024 → t.pst < 2 ^ 32 → t.sleepAt < 2 ^ 64 → ∃ r, Leaves (.threadRecordRead tk) s (s.emit (.report "thread record" (tk :: r))) ∧
      r.length = 256 ∧ (∃ pc : BitVec 56, num r 0 8 = pc.toNat + (if t.mode = .trap then 2 ^ 63 else 0) ∧ (bar → pc = t.pc + 12) ∧ (¬bar → pc = t.pc)) ∧ num r 8 8 = t.tpc.toNat ∧
      num r 16 8 = t.tval.toNat ∧ num r 24 1 = t.tcause.toNat % 2 ^ 8 ∧ num r 28 4 = t.tinfo.toNat % 2 ^ 32 ∧
      num r 32 4 = t.skeins.toNat ∧ num r 36 2 = t.depth ∧ num r 38 1 = (t.p ||| 1).toNat ∧
      ((num r 39 1).testBit 0 = t.exited) ∧ ((num r 39 1).testBit 1 = true ↔ bar) ∧ ((num r 39 1).testBit 2 = true ↔ t.wait = .sleep) ∧
      ((num r 39 1).testBit 3 = t.pendFault.isSome) ∧ ((num r 39 1).testBit 4 = true ↔ t.reports ≠ []) ∧
      (t.trapSkein = none → num r 52 2 = 0xFFFF) ∧ (∀ z ∈ b.trapSkeins, t.trapSkein = some z.num → (b.trapSkeins.map (·.num)).Nodup →
        z.tag < 3072 → num r 52 2 = z.tag) ∧
      num r 40 8 = t.sleepAt ∧ num r 48 4 = t.pst ∧
      (∀ i, i < 8 → i < t.depth → num r (64 + 8 * i) 8 = (Sparse.getD t.ret (t.depth - i) 0).toNat) ∧
      ∀ i, i < 8 → num r (128 + 4 * i) 4 = (t.bank i).toNat) ∧
    (∀ bs, halted → bs.length ≠ 256 → Leaves (.threadRecordWrite tk bs) s s) ∧
    (∀ bs, halted → bs.length = 256 → t.exited = false →
      let num (i n : Nat) : Nat := leNat ((bs.drop i).take n)
      let trap := (num 0 8).testBit 63
      let new : BitVec 16 := BitVec.ofNat 16 (num 32 4) ||| 1
      ((t.mode = .user ∧ trap = false ∧ t.trapSkein = none) ∨
        (t.mode = .trap ∧ trap = true ∧ (b.trapSkeins.map (·.num)).Nodup ∧ (b.trapSkeins.map (·.tag)).Nodup ∧
          ∃ z ∈ b.trapSkeins, z.tag = num 52 2 ∧ t.trapSkein = some z.num)) → (num 39 1).testBit 0 = false → (bar → (num 39 1).testBit 1 = true) →
      (∀ k, k < 16 → t.skeins.getLsbD k = true → new.getLsbD k = true) →
      ∃ s' u, Leaves (.threadRecordWrite tk bs) s s' ∧ s'.thread? tk = some u ∧ (∀ k, k ≠ tk → s'.thread? k = s.thread? k) ∧
        (bar → u.wait = t.wait ∧ u.pc + 12 = BitVec.ofNat 56 (num 0 8)) ∧ (¬bar → u.pc = BitVec.ofNat 56 (num 0 8)) ∧
        (¬bar → t.wait ≠ .halted → (u.wait = .sleep ↔ (num 39 1).testBit 2 = true)) ∧
        u.pendFault = (if (num 39 1).testBit 3 then t.pendFault else none) ∧ u.exited = false ∧ u.mode = t.mode ∧ u.trapSkein = t.trapSkein ∧
        u.tpc = BitVec.ofNat 64 (num 8 8 % 2 ^ 56 / 4 * 4) ∧ u.tval = BitVec.ofNat 64 (num 16 8) ∧
        u.tcause = BitVec.ofNat 64 (num 24 1) ∧ u.tinfo = BitVec.ofNat 64 (num 28 4) ∧ u.skeins = new ∧
        u.depth = min (num 36 2) 1024 ∧ (∀ i, i < 8 → u.pred i = (i == 0 || (num 38 1).testBit i)) ∧ u.sleepAt = num 40 8 ∧
        (∀ i, i < 8 → i < u.depth → Sparse.getD u.ret (u.depth - i) 0 = BitVec.ofNat 64 (num (64 + 8 * i) 8)) ∧
        (∀ i, i < 8 → u.bank i = BitVec.ofNat 32 (num (128 + 4 * i) 4)) ∧ u.v = t.v ∧ u.marks = t.marks ∧ u.pst = num 48 4) ∧
    (∀ bs, halted → bs.length = 256 → (leNat ((bs.drop 39).take 1)).testBit 0 = true → t.exited = false →
      ∃ s' u, exec (.threadRecordWrite tk bs) s = .next s' ∧ s'.thread? tk = some u ∧ u.exited = true)) ∧
  (∀ (s : State) (on : Bool), Leaves (.breakpointArm on) s { s with brk := on }) ∧
  ∀ (s : State) (nonce : List Byte), nonce.length = 32 → s.devno < 2 ^ 16 → s.starts < 2 ^ 32 → s.measure.length ≤ 16 →
    ∃ r, Leaves (.attestation nonce) s (s.emit (.attest r)) ∧ r.length = 64 + 64 * s.measure.length + 1280 ∧ r.take 32 = nonce ∧
      leNat ((r.drop 32).take 2) = s.devno ∧ leNat ((r.drop 34).take 2) = s.measure.length ∧
      leNat ((r.drop 36).take 4) = s.starts ∧ leNat ((r.drop 40).take 8) = Config.serial.toNat ∧ leNat ((r.drop 48).take 16) = 0 ∧
      (∀ i, i < s.measure.length → leNat ((r.drop (64 + 64 * i)).take 64) = (s.measure.getD i 0).toNat) ∧
      r.drop (64 + 64 * s.measure.length) =
        leBytes 1280 (Config.falconSign identityKey (shake256 (r.take (64 + 64 * s.measure.length)))).toNat

/-! ### Power, failures and starts (chapters 14, 23 and 25) -/

/-- R298 to R300, R455. At the end of an interval the power controller takes its estimate, keeps I within −1,024 and 1,024 and lvl within 1 and 12,
moves lvl by at most +1 and −4, and sets the ratio and PCAP from it; in deterministic mode it is suspended. Four intervals in a row
with the clock halved for 500 ns set a ceiling of 8, or lower it by 2 to no less than 4, for 10 ms, under which the site's local state
is at least TS2. The droop detector halves the
clock until it has stayed clear for DRHOLD. -/
def Obligations.PowerController : Prop :=
  ∀ (s : State) (core est : Nat),
    let c := s.core core
    let x := min est 0xFFFF
    let err : Int := (min c.budget 0x180 : Nat) - (x : Nat)
    let i : Int := min (max (c.integ + err) (-1024)) 1024
    let u : Int := (err + i / 8) / 16
    let lvl : Int := min (max (c.lvl + max (min u 1) (-4)) 1) 12
    let run := if 1050 ≤ c.halvedFor then c.stormRun + 1 else 0
    let others (s' : State) : Prop := (∀ k, k ≠ core → s'.core k = s.core k) ∧ s' = { s with cores := s'.cores }
    let storm : Prop := ∃ i, i < 4 ∧ core / 4 * 4 + i ≠ core ∧ (s.core (core / 4 * 4 + i)).ceiling.isSome = true
    let rest := 2100 - s.clk % 2100
    let passed := c.droopSeen + max c.drhold 100 * 21 / 10
    (∃ s' d, Leaves (.powerControllerInterval core est) s s' ∧ (d.ceiling = none ∨ 2 ≤ (s.site (core / 4)).local_ → others s' ∨ storm) ∧
      (d.ceiling ≠ none → 2 ≤ (s'.site (core / 4)).local_) ∧ s'.core core = d ∧ d.est = x ∧ d.budget = c.budget ∧
      d.halvedFor = (if c.droop then 2100 else 0) ∧ d.stormRun = (if 4 ≤ run then 0 else run) ∧
      (4 ≤ run → c.ceiling = none → d.ceiling = some (8, s.clk + 21000000)) ∧
      (∀ h t, 4 ≤ run → c.ceiling = some (h, t) → d.ceiling = some (max (h - 2) 4, s.clk + 21000000)) ∧
      (run < 4 → c.ceiling = none → d.ceiling = none) ∧
      (∀ h t, run < 4 → c.ceiling = some (h, t) → d.ceiling =
        if s.clk < t then some (h, t) else if 12 ≤ h + 2 then none else some (h + 2, s.clk + 21000000)) ∧
      (c.det = true → d.nrat = 8 ∧ d.pcap = 8 ∧ d.lvl = c.lvl ∧ d.integ = c.integ) ∧
      (c.det = false → d.integ = i ∧ d.lvl = (match d.ceiling with | some (h, _) => min lvl h | none => lvl) ∧
        (8 ≤ d.lvl → (d.nrat : Int) = d.lvl - 4 ∧ d.pcap = 8) ∧ (d.lvl < 8 → d.nrat = 4 ∧ d.pcap = d.lvl.toNat))) ∧
    (∃ s', Leaves (.droopDetect core) s s' ∧ others s' ∧ s'.core core = { c with
      droop := true, droopSeen := s.clk, halvedFor := if c.droop then c.halvedFor else c.halvedFor + rest }) ∧
    (c.droop = true → passed ≤ s.clk → ∃ s', Leaves (.droopHoldExpiry core) s s' ∧ others s' ∧
      s'.core core = { c with droop := false, halvedFor := c.halvedFor - rest }) ∧
    (c.droop = false ∨ s.clk < passed → ∃ s', Leaves (.droopHoldExpiry core) s s' ∧ ∀ k, s'.core k = s.core k)

/-- R301 to R305, R452, R453, R455. At an evaluation a site takes as its local state the lowest whose limit the DRAM temperature and the predicted
temperature keep, at least TS2 in a storm and TS6 without a trusted sensor, and applies it, or its group's; above 105 °C it applies
TS7 at once and, in time, tells its group. The measured power counts 24 W for a core whose current sensor has failed. The test of the sensors fails
those out of range for good, uses a trusted sensor's reading, of a deviating pair the higher one and for a failed one 5 °C above its highest
trusted neighbour, and takes the coolant from the inlet sensors (what the test's span and its history mean is log 26).
R306 to R308, R456, R457. Throttle groups. An assignment puts the device into the group that names it, or into none; the member of lowest
number leads, and its own offset is 0. A member's value that first reached a member 20 µs or more before the boundary (of a relayed one the
relay tells when: log 35), its first or a higher one, is kept and relayed, any other changes nothing (group time is read with an error that is a free value). At a boundary the highest value of the round, with a missing
member's last one, becomes the state of every site that is not forced to TS7; a member missing for three rounds is removed, and a device whose
every partner is missing leaves the group with its state as a floor. -/
def Obligations.ThrottleStates : Prop :=
  (∀ (s : State) (site : Nat) (tdram : Int), site < 16 →
    let x := s.site site
    let act : List Rat := [1, 1, 71 / 80, 71 / 80, 31 / 40, 23 / 32, 31 / 80, 9 / 160]
    let limit (st : Nat) : Rat := if st = 0 then 8500 else if st ≤ 2 then 9500 else 10500
    let applies (s' : State) : Prop := (s'.site site).applied =
      (if (s'.site site).forced then 7 else match s.group with | some g => g.state | none => max (s'.site site).local_ s.floorState)
    let kept (s' : State) : Prop := (∀ k, k ≠ site → s'.site k = s.site k) ∧ s'.threads = s.threads ∧ s'.blocks = s.blocks ∧
      (s.group = none → s'.group = none) ∧ ∀ g, s.group = some g → ∃ h, s'.group = some h ∧ h = { g with sent := h.sent } ∧
        ((∀ k, k < 16 → (s'.site k).forced = false) → h.sent = g.sent) ∧
        (h.sent = g.sent ∨ (h.sent = 7 ∧ g.sent < 7 ∧ s'.out = s.out ++ [.report "round value" [s.devno, 7]]))
    (∀ tcool power, s.clk % 210000 ≠ 0 ∨ x.fenced = true → Leaves (.governorEvaluation site tcool tdram power []) s s) ∧
    (∀ (tcool : Int) (measured : PowerReading), s.clk % 210000 = 0 → x.fenced = false → x.applied ≤ 7 →
      let watts (c : Nat) : Nat := if ∃ y, Sparse.get? x.sensors (32 + c) = some y ∧ y.failed = true then 24 * 16 else measured.cores.getD c 0
      let power := measured.rest + watts 0 + watts 1 + watts 2 + watts 3
      let predicted (st : Nat) : Rat :=
        (tcool : Rat) + (Config.theta site : Rat) / 1000 * ((power : Rat) / 16) * 100 * act.getD st 0 / act.getD x.applied 1
      let ok (st : Nat) : Prop := (tdram : Rat) ≤ limit st ∧ predicted st ≤ limit st - (if st < x.applied then 200 else 0)
      let storm : Prop := ∃ i, i < 4 ∧ (s.core (site * 4 + i)).ceiling.isSome = true
      ∃ s' choice, Leaves (.governorEvaluation site tcool tdram measured []) s s' ∧ kept s' ∧ s'.cool = tcool ∧
        (s'.site site).tdram = tdram ∧ (s'.site site).power = power ∧ (s'.site site).forced = decide (10500 < tdram) ∧
        choice ≤ 7 ∧ (∀ st, st < choice → ¬ok st) ∧ (choice < 7 → ok choice) ∧
        (storm → x.noTrust = false → (s'.site site).local_ = max choice 2) ∧ (x.noTrust = true → (s'.site site).local_ = max choice 6) ∧
        (¬storm → x.noTrust = false → (s'.site site).local_ = choice) ∧ applies s') ∧
    (tdram ≤ 10500 → Leaves (.dramOvertemp site tdram) s s) ∧
    (10500 < tdram → ∃ s', Leaves (.dramOvertemp site tdram) s s' ∧ kept s' ∧ (s'.site site).tdram = tdram ∧
      (s'.site site).local_ = 7 ∧ (s'.site site).forced = true ∧ (s'.site site).applied = 7 ∧
      ∀ g, s.group = some g → g.sent < 7 → s.roundOpen g = true →
        s'.group = some { g with sent := 7 }) ∧
    ∀ (rs : List Int) (power : PowerReading) (cool : Int × Int), rs.length = 36 →
      let bad (t : Int) : Prop := t < -2000 ∨ 15000 < t
      let next (k : Nat) : List Nat := let b := k / 16 * 16; let u := k % 16 / 4
        [b + 4 * u + (k + 1) % 4, b + 4 * u + (k + 3) % 4, b + 4 * (if u % 2 = 0 then u + 1 else u - 1) + k % 4]
      ∃ s' ss, Leaves (.sensorTest site rs power cool) s s' ∧ (∀ k, k ≠ site → s'.site k = s.site k) ∧ s'.threads = s.threads ∧
        (s'.site site).sensors = ss ∧
        (∀ k, k < 32 → ∃ y, Sparse.get? ss k = some y ∧ y.history.head? = some (rs.getD k 0) ∧ y.history.length ≤ 50 ∧
          (bad (rs.getD k 0) → y.failed = true) ∧ (∀ z, Sparse.get? x.sensors k = some z → z.failed = true → y.failed = true) ∧
          (y.failed = false → y.paired = false → y.used = some (rs.getD k 0)) ∧
          (y.paired = true → y.failed = false ∧ ∃ m, y.used = some m ∧ rs.getD k 0 ≤ m ∧
            (∀ j ∈ next k, ∀ z, Sparse.get? ss j = some z → z.paired = true → rs.getD j 0 ≤ m) ∧
            (m = rs.getD k 0 ∨ ∃ j ∈ next k, ∃ z, Sparse.get? ss j = some z ∧ z.paired = true ∧ m = rs.getD j 0)) ∧
          (y.failed = true → y.paired = false → ∀ m : Int, y.used = some m ↔
            (∃ j ∈ next k, ∃ z, Sparse.get? ss j = some z ∧ z.failed = false ∧ z.paired = false ∧ m = rs.getD j 0 + 500) ∧
            ∀ j ∈ next k, ∀ z, Sparse.get? ss j = some z → z.failed = false → z.paired = false → rs.getD j 0 + 500 ≤ m)) ∧
        (∀ c, c < 4 → ∃ y, Sparse.get? ss (32 + c) = some y ∧ y.history.head? = some (rs.getD (32 + c) 0) ∧
          (rs.getD (32 + c) 0 < 0 ∨ 15000 < rs.getD (32 + c) 0 → y.failed = true) ∧
          (∀ z, Sparse.get? x.sensors (32 + c) = some z → z.failed = true → y.failed = true)) ∧
        (∀ m, (∃ k y, k < 16 ∧ Sparse.get? ss k = some y ∧ y.used = some m) →
          (∀ k y n, k < 16 → Sparse.get? ss k = some y → y.used = some n → n ≤ m) → (s'.site site).tdram = m) ∧
        ((s'.site site).noTrust = true ↔ ∀ k y, k < 16 → Sparse.get? ss k = some y → y.failed = true ∨ y.paired = true) ∧
        ((s'.site site).noTrust = true → 6 ≤ (s'.site site).local_) ∧
        (10500 < (s'.site site).tdram → (s'.site site).applied = 7) ∧ applies s' ∧
        (bad cool.1 → bad cool.2 → s'.cool = 5500 ∧ (s'.site site).coolFail = true) ∧
        (bad cool.1 → ¬bad cool.2 → s'.cool = cool.2) ∧ (¬bad cool.1 → bad cool.2 → s'.cool = cool.1) ∧
        (¬bad cool.1 → ¬bad cool.2 → 200 < cool.1 - cool.2 → s'.cool = cool.1) ∧
        (¬bad cool.1 → ¬bad cool.2 → 200 < cool.2 - cool.1 → s'.cool = cool.2)) ∧
  (∀ (s : State),
    let sameBut (s' : State) : Prop := s'.threads = s.threads ∧ s'.blocks = s.blocks ∧ s'.clk = s.clk ∧ s'.mem = s.mem
    let at_ (s' : State) (st : Nat) : Prop := ∀ i, i < 16 → (s'.site i).applied = if (s.site i).forced then 7 else st
    (∀ gid devs offset, s.devno ∈ devs → ∃ s' g, Leaves (.throttleGroupAssignment gid devs offset) s s' ∧ sameBut s' ∧ s'.group = some g ∧
      g.gid = gid % 255 ∧ (g.leader = s.devno ↔ ∀ d ∈ devs, s.devno ≤ d) ∧ (g.leader ∈ devs ∧ ∀ d ∈ devs, g.leader ≤ d) ∧
      (g.leader = s.devno → g.offset = 0 ∧ g.error = 0) ∧ (g.leader ≠ s.devno → g.offset = offset) ∧ g.error.natAbs ≤ 2100 ∧
      g.next % 210000 = 0 ∧ s.groupTime g < g.next ∧ g.next ≤ s.groupTime g + 210000 ∧
      s'.out = s.out ++ [.report "round value" [s.devno, g.sent]] ∧ s'.floorState = 0 ∧ (∀ d, d ∈ g.members.map (·.dev) ↔ d ∈ devs ∧ d ≠ s.devno) ∧
      (g.members.map (·.dev)).Nodup ∧
      ∀ i, i < 16 → (s'.site i).silent = false ∧ (s'.site i).applied = (s.site i).applied) ∧
    (∀ gid devs offset, s.devno ∉ devs → ∃ s', Leaves (.throttleGroupAssignment gid devs offset) s s' ∧ sameBut s' ∧ s'.group = none ∧
      s'.floorState = 0 ∧ ∀ i, i < 16 → (s'.site i).silent = false ∧
        (s'.site i).applied = if (s.site i).forced then 7 else (s.site i).local_) ∧
    (s.group = none → (∀ dev v rel, Leaves (.roundValueReceived dev ⟨v, rel⟩) s s) ∧ Leaves .throttleRoundBoundary s s) ∧
    ∀ g, s.group = some g →
      let time : Int := s.clk + g.offset + g.error
      let open_ (rel : Option Int) : Prop := rel.getD time + 42000 ≤ g.next ∧ time < g.next
      (∀ dev v rel, ¬open_ rel ∨ (∀ m ∈ g.members, m.dev = dev → ∃ w, m.now = some w ∧ min v 7 ≤ w) → Leaves (.roundValueReceived dev ⟨v, rel⟩) s s) ∧
      (∀ dev v rel m, open_ rel → m ∈ g.members → m.dev = dev → (∀ w, m.now = some w → w < min v 7) → (g.members.map (·.dev)).Nodup →
        ∃ s' h, Leaves (.roundValueReceived dev ⟨v, rel⟩) s s' ∧ s'.group = some h ∧ { m with now := some (min v 7) } ∈ h.members ∧
          (∀ k ∈ g.members, k.dev ≠ dev → k ∈ h.members) ∧ h.members.length = g.members.length ∧
          s' = { s with group := s'.group, out := s.out ++ [.report "round value" [dev, min v 7]] }) ∧
      (time < g.next → Leaves .throttleRoundBoundary s s) ∧
      (g.next ≤ time →
        let value (m : Member) : Nat := m.now.getD m.last
        let lives (m : Member) : Prop := m.now.isSome = true ∨ m.missing + 1 < 3
        (g.members = [] ∨ (∃ m ∈ g.members, lives m) → ∃ s' h, Leaves .throttleRoundBoundary s s' ∧ sameBut s' ∧ s'.group = some h ∧
          (∀ m, m ∈ h.members ↔ ∃ k ∈ g.members, lives k ∧
            m = { k with last := value k, now := none, missing := if k.now.isSome then 0 else k.missing + 1 }) ∧
          h.next = g.next + 210000 ∧ h.gid = g.gid ∧ s'.out.getLast? = some (.report "round value" [s.devno, h.sent]) ∧
          (g.leader = s.devno ∨ (∃ m ∈ g.members, lives m ∧ m.dev = g.leader) → h.leader = g.leader) ∧
          (h.leader = s.devno → h.offset = g.offset + g.error ∧ h.error = 0) ∧ (h.leader ≠ s.devno → h.offset = g.offset) ∧
          g.sent ≤ h.state ∧ (∀ m ∈ g.members, lives m → value m ≤ h.state) ∧
          (h.state = g.sent ∨ ∃ m ∈ g.members, lives m ∧ h.state = value m) ∧
          (∀ i, i < 16 → (s'.site i).group = h.state) ∧ at_ s' h.state ∧
          ((∃ m ∈ g.members, ¬lives m) → ∀ i, i < 16 → (s'.site i).silent = true)) ∧
        (g.members ≠ [] → (∀ m ∈ g.members, ¬lives m) → ∃ s', Leaves .throttleRoundBoundary s s' ∧ sameBut s' ∧ s'.group = none ∧
          s'.floorState = g.state ∧ ∀ i, i < 16 → (s'.site i).silent = true ∧
            (s'.site i).applied = if (s.site i).forced then 7 else max (s.site i).local_ g.state)))

/-- R406, R408, R409, R413, R415, R435, R437, R441. Links, slices, pseudo-channels, copy engines, near-memory calls and issue slices that fail: a retry shows
nothing; the first failed link of a mesh or segment of the ring only reroutes, a second fences the site's cores, or the sites that the ring
cuts off; a slice's lines leave it whole, or as poison; a second pseudo-channel fences its vault; a fenced copy engine runs no command, and a
near-memory call that times out runs no longer (a second one in a row fences its unit); and a core is fenced when a slice of it, or both its copy engines, have failed. -/
def Obligations.FailedUnits : Prop :=
  ∀ (s : State),
    let logged (n : Nat) : State := { s with logs := Sparse.set s.logs n (Sparse.getD s.logs n 0 + 1) }
    (∀ link, Leaves (.flitCrcError link false) s (logged 3)) ∧
    (∀ site mesh l, (mesh, l) ∉ (s.site site).linkFailed → ∃ s', Leaves (.flitCrcError (.mesh site mesh l) true) s s' ∧
      (s'.site site).linkFailed = (s.site site).linkFailed ++ [(mesh, l)] ∧
      ((∀ k, (mesh, k) ∉ (s.site site).linkFailed) → ∀ c, s'.core c = s.core c) ∧
      ∀ k, (mesh, k) ∈ (s.site site).linkFailed → ∀ c, (s'.core c).fenced = true ↔ (s.core c).fenced = true ∨ c / 4 = site) ∧
    (∀ g, g < 16 → s.hemFailed = [] → ∃ s', Leaves (.flitCrcError (.hem g) true) s s' ∧ s' = { logged 3 with hemFailed := [g] }) ∧
    (∀ g h, g < 16 → h < 16 → g ≠ h → s.hemFailed = [g] → ∃ s', Leaves (.flitCrcError (.hem h) true) s s' ∧ s'.hemFailed = [g, h] ∧
      ∀ i, i < 16 → ((s'.site i).fenced = true ↔ (s.site i).fenced = true ∨ (min g h < i ∧ i ≤ max g h)) ∧
        (min g h < i → i ≤ max g h → (s.site i).fenced = false → ∀ c, c / 4 = i → (s'.core c).fenced = true)) ∧
    (∀ site slice, (s.site site).sliceFenced.getLsbD slice = true → Leaves (.sliceFence site slice []) s s) ∧
    (∀ site slice unreadable, site < 16 → slice < 16 → (s.site site).sliceFenced.getLsbD slice = false → s.linesOk →
      risingFrom 0 s.lines = true →
      let x := s.site site
      let gone : Prop := ∀ k, k / 4 = slice / 4 → k < 16 → k ≠ slice → x.sliceFenced.getLsbD k = true
      ∃ s', exec (.sliceFence site slice unreadable) s = .next s' ∧ (s'.site site).gen0 = (x.gen0 + 1) % 2 ^ 16 ∧
        (s'.site site).gen1 = (x.gen1 + 1) % 2 ^ 16 ∧ (s'.site site).sliceFenced = x.sliceFenced ||| (1#16 <<< slice) ∧
        (∀ ln l, Sparse.get? s'.lines ln = some l → l.slice ≠ site * 16 + slice) ∧
        (∀ ln l c, Sparse.get? s'.lines ln = some l → Sparse.get? l.copies site = some c → c ≠ slice) ∧
        (∀ pa, (∀ l, Sparse.get? s.lines (pa / 128) = some l → l.slice = site * 16 + slice → l.dirty = true → pa / 128 ∉ unreadable) →
          s'.homeByte pa = s.homeByte pa) ∧
        (∀ ln l, Sparse.get? s.lines ln = some l → l.slice = site * 16 + slice → l.dirty = true → ln ∈ unreadable → ¬gone →
          ∀ i, i < 128 → s'.poisonOf (ln * 128 + i) = some 2) ∧
        (gone → (s'.core (site * 4 + slice / 4)).fenced = true ∧ (s'.site site).vaultFenced.getLsbD (slice / 4) = true) ∧
        (¬gone → s'.cores = s.cores ∧ (s'.site site).vaultFenced = x.vaultFenced)) ∧
    (∀ site v, v < 4 → Sparse.getD (s.site site).chanFailed v 0 = 0 → ∃ s', Leaves (.pseudoChannelFailure site v) s s' ∧
      (s'.site site) = { s.site site with chanFailed := Sparse.set (s.site site).chanFailed v 1 } ∧
      s' = { logged 4 with sites := s'.sites }) ∧
    (∀ site v, v < 4 → Sparse.getD (s.site site).chanFailed v 0 = 1 → ∃ s', exec (.pseudoChannelFailure site v) s = .next s' ∧
      (s'.site site).vaultFenced = (s.site site).vaultFenced ||| (1#4 <<< v) ∧ ((s'.site site).unit v).fenced = true ∧
      (∀ r ∈ (s'.site site).running, r.core / 4 = site → r.engine ≠ 2 + v) ∧
      ∀ pa, s.ownDram pa = true → paSite pa = site → (s.site site).vaultOf (paOfs pa) = v → s'.poisonOf pa = some 6) ∧
    (∀ core e, e < 2 → ∃ s', exec (.copyEngineFence core e) s = .next s' ∧
      (s'.core core).copyFenced = (s.core core).copyFenced ||| (1#2 <<< e) ∧
      (∀ r ∈ (s'.site (core / 4)).running, ¬(r.core = core ∧ r.engine = e)) ∧
      ((s'.core core).fenced = true ↔ (s.core core).fenced = true ∨ (s.core core).copyFenced.getLsbD (1 - e) = true)) ∧
    (∀ site u, u < 4 → (∀ r ∈ (s.site site).running, r.engine = 2 + u → s.clk ≤ r.started + 2 ^ 24) →
      Leaves (.nmuCallTimeout site u) s s) ∧
    (∀ site u r, u < 4 → r ∈ (s.site site).running → r.engine = 2 + u → r.core / 4 = site → r.started + 2 ^ 24 < s.clk →
      (∀ y ∈ (s.site site).running, y.engine = 2 + u → y = r) →
      ∃ s', exec (.nmuCallTimeout site u) s = .next s' ∧ (∀ y ∈ (s'.site site).running, y.engine ≠ 2 + u) ∧
        ((s'.site site).unit u).abandoned = ((s.site site).unit u).abandoned + 1 ∧
        (((s'.site site).unit u).fenced = true ↔ ((s.site site).unit u).fenced = true ∨ 1 ≤ ((s.site site).unit u).abandoned)) ∧
    ∀ core sl, sl < 6 → ∃ s', Leaves (.issueSliceFailure core sl) s s' ∧ (s'.slice core sl).failed = true ∧ (s'.core core).fenced = true ∧
      ∀ k, k ≠ core → (s'.core k).fenced = (s.core k).fenced

/-- R65 to R67, R405. At the end of its window a site replicates the frames with at least RTHRESH remote reads and at most WTHRESH remote writes
that no uncached page reached (its type is normal: log 60), keeps those replicated before with half as many reads, drops the copies of the others and clears its counters. A port that times
out is down: until a start every access of another device that goes through it is answered as poison with ORIGIN 5. -/
def Obligations.WindowsAndPorts : Prop :=
  ∀ (s : State),
    (∀ site, let x := s.site site
      ∃ s', Leaves (.replicationWindow site) s s' ∧ (∀ k, k ≠ site → s'.site k = s.site k) ∧
        s' = { s with lines := s'.lines, sites := s'.sites } ∧
        (s'.site site) = { x with replicated := (s'.site site).replicated, reads := [], writes := [], uncachedIn := [] } ∧
        (∀ F, F < 2 ^ 15 → (F ∈ (s'.site site).replicated ↔ Sparse.getD x.writes F 0 ≤ x.wthresh ∧
          (if F ∈ x.replicated then x.rthresh / 2 else x.rthresh) ≤ Sparse.getD x.reads F 0 ∧ (F ∈ x.replicated ∨ F ∉ x.uncachedIn))) ∧
        ∀ ln l, Sparse.get? s.lines ln = some l → ∃ m, Sparse.get? s'.lines ln = some m ∧ m = { l with sharers := m.sharers, copies := m.copies } ∧
          (s.ownDram (ln * 128) = true → paSite (ln * 128) = site → frameOf (paOfs (ln * 128)) ∉ (s'.site site).replicated →
            m.sharers = 0 ∧ m.copies = []) ∧
          (paSite (ln * 128) ≠ site ∨ frameOf (paOfs (ln * 128)) ∈ (s'.site site).replicated → m = l)) ∧
    ∀ port, (∀ r ∈ s.reqs, ∀ pa, r.place.pa? = some pa → paDev pa = s.devno ∨ Sparse.getD s.routes (paDev pa) 0 ≠ port) →
      ∃ s', Leaves (.scaleUpPortTimeout port) s s' ∧ s' = { s with portsDown := s'.portsDown } ∧
        (∀ p, p ∈ s'.portsDown ↔ p ∈ s.portsDown ∨ p = port) ∧
        ∀ site pa, paDev pa ≠ s.devno → Sparse.getD s.routes (paDev pa) 0 = port → s'.unreachable site pa = some 5

/-- R311, R318, R319, R459, R460. A start command holds the package in reset; in recovery only a cold one does, which sets the count of failed starts
to 0. A cold start that succeeds leaves every register and all of DRAM at their reset values, loads DEVNO, MEASURE and the control stores, and
fences and reports the units that it finds bad; one whose images do not carry the root key's signature fails at step 4. A warm one keeps what R318
lists, and loses every line, thread, block, launch, access and running command; one whose images differ from MEASURE fails at step 4. A failed
start holds the package, keeps its step, site and cause, and after step 4 alone asks for a cold start. The start after three failures in a row boots the recovery
image, which reports count, steps, sites and causes, or answers management messages with one fixed report and does nothing more (which numbers
name units and causes in a report, and that the count of issued numbers and free values goes on, is the model's choice, log 56). -/
def Obligations.Starts : Prop :=
  ∀ (s : State) (i : StartInfo),
    let same (s' base : State) : Prop := s' = { base with out := s'.out, nextId := s.nextId, fresh := s.fresh }
    let digests := i.images.map Image.digest
    let may : Prop := s.failedStarts < 3 ∧ i.failedStep = none ∧ StartUnit.site 0 ∉ i.bad
    let allowed : Prop := may ∧ ∀ m ∈ i.images, m.verifies = true
    let cause (w : Bool) (k j : Nat) : Prop := i.failedStep = some (k, j) ∨ (k = 2 ∧ j = 0 ∧ StartUnit.site 0 ∈ i.bad) ∨
      (k = 4 ∧ j = 0 ∧ if w then digests ≠ s.measure else ∃ m ∈ i.images, m.verifies = false)
    let first (w : Bool) (k j : Nat) : Prop := cause w k j ∧ ∀ m n, cause w m n → k < m ∨ (m = k ∧ n = j)
    let row (k c : Nat) : Prop := (k = 1 ∧ c = 1) ∨ (k = 2 ∧ c = 3) ∨ (k = 3 ∧ c = 5) ∨ (k = 4 ∧ c = 6) ∨ (k = 5 ∧ c = 7)
    let warmSite (x : Site) : Site := { Site.reset with
      modes := x.modes, smask0 := x.smask0, fmask0 := x.fmask0, gen0 := x.gen0, smask1 := x.smask1, fmask1 := x.fmask1, gen1 := x.gen1
      rthresh := x.rthresh, wthresh := x.wthresh }
    let warmCore (c : Core) : Core := { Core.reset with quotas := c.quotas, quotaSel := c.quotaSel, quotaRefused := c.quotaRefused }
    let warm (s' : State) : Prop := (∀ pa, s'.homeByte pa = s.homeByte pa) ∧ (∀ k, s'.site k = warmSite (s.site k)) ∧ ∀ k, s'.core k = warmCore (s.core k)
    (∀ cold, s.recovery = false → Leaves (.startCommand cold) s { s with held := true, issueQ := [] }) ∧
    (s.recovery = true → Leaves (.startCommand false) s s ∧
      Leaves (.startCommand true) s { s with recovery := false, failedStarts := 0, failures := [], held := true, issueQ := [] }) ∧
    (allowed → i.bad = [] → ∃ s', exec (.coldStart i) s = .next s' ∧ s'.out = s.out ∧ same s' { State.reset with
      devno := i.devno, routes := i.routes, measure := digests.take 16, routines := i.routines, microcode := i.microcode.take 256 }) ∧
    (∀ c, allowed → i.bad = [.core c] → ∃ s', exec (.coldStart i) s = .next s' ∧ (s'.core c).fenced = true ∧
      (∀ k, k ≠ c → s'.core k = Core.reset) ∧ s'.mem = [] ∧ s'.failedStarts = 0 ∧
      Msg.report "units fenced at start" [0, c, 0] ∈ s'.out) ∧
    (∀ site sl, allowed → i.bad = [.l2 site sl] → sl < 16 → ∃ s', exec (.coldStart i) s = .next s' ∧
      (s'.site site).sliceFenced = 1#16 <<< sl ∧ (∀ k, k ≠ site → s'.site k = Site.reset) ∧
      Msg.report "units fenced at start" [1, site, sl] ∈ s'.out) ∧
    (∀ site v, allowed → i.bad = [.vault site v] → v < 4 → ∃ s', exec (.coldStart i) s = .next s' ∧
      (s'.site site).vaultFenced = 1#4 <<< v ∧ Msg.report "units fenced at start" [2, site, v] ∈ s'.out) ∧
    (∀ site v, allowed → i.bad = [.channel site v] → v < 4 → ∃ s', exec (.coldStart i) s = .next s' ∧
      Sparse.getD (s'.site site).chanFailed v 0 = 1 ∧ (s'.site site).vaultFenced = 0 ∧ Msg.report "units fenced at start" [3, site, v] ∈ s'.out) ∧
    (∀ c e, allowed → i.bad = [.copy c e] → e < 2 → ∃ s', exec (.coldStart i) s = .next s' ∧
      (s'.core c).copyFenced = 1#2 <<< e ∧ (s'.core c).fenced = false ∧ Msg.report "units fenced at start" [4, c, e] ∈ s'.out) ∧
    (∀ c, allowed → i.bad = [.matrix c] → ∃ s', exec (.coldStart i) s = .next s' ∧ (s'.core c).matrixFenced = true ∧
      (∀ k, (s'.core k).fenced = true ↔ k = c) ∧ Msg.report "units fenced at start" [5, c, 0] ∈ s'.out) ∧
    (∀ site u, allowed → i.bad = [.near site u] → ∃ s', exec (.coldStart i) s = .next s' ∧ ((s'.site site).unit u).fenced = true ∧
      Msg.report "units fenced at start" [6, site, u] ∈ s'.out) ∧
    (∀ site, allowed → i.bad = [.att site] → ∃ s', exec (.coldStart i) s = .next s' ∧ ((s'.site site).unit 4).fenced = true ∧
      Msg.report "units fenced at start" [7, site, 0] ∈ s'.out) ∧
    (∀ site, allowed → i.bad = [.site site] → ∃ s', exec (.coldStart i) s = .next s' ∧ (s'.site site).fenced = true ∧
      (∀ c, (s'.core c).fenced = true ↔ c / 4 = site) ∧ Msg.report "units fenced at start" [8, site, 0] ∈ s'.out) ∧
    (may → digests = s.measure → i.bad = [] → s.memOk → s.linesOk → ∃ s', exec (.warmStart i) s = .next s' ∧ warm s' ∧ s'.out = s.out ∧
      same s' { State.reset with
        mem := s'.mem, poison := s'.poison, quads := s'.quads, devno := s.devno, asidbase := s.asidbase, routes := s.routes, filter := s.filter
        measure := s.measure, starts := s.starts + 1, sites := s'.sites, cores := s'.cores, routines := i.routines, microcode := i.microcode.take 256 }) ∧
    (∀ k j c, s.failedStarts < 3 → first false k j → row k c → ∃ s', exec (.coldStart i) s = .next s' ∧ s'.out = s.out ∧ same s' { State.reset with
      held := true, mem := s.mem, poison := s.poison, quads := s.quads, devno := s.devno, starts := s.starts
      measure := if k = 4 then [] else s.measure, failedStarts := s.failedStarts + 1, failures := s.failures ++ [(k, j, c)] }) ∧
    (∀ k j c, s.failedStarts < 3 → first true k j → row k c → s.memOk → s.linesOk → ∃ s', exec (.warmStart i) s = .next s' ∧ warm s' ∧ s'.out = s.out ∧
      same s' { State.reset with
        held := true, mem := s'.mem, poison := s'.poison, quads := s'.quads, devno := s.devno, asidbase := s.asidbase, routes := s.routes
        filter := s.filter, starts := s.starts, sites := s'.sites, cores := s'.cores
        measure := if k = 4 then [] else s.measure, failedStarts := s.failedStarts + 1, failures := s.failures ++ [(k, j, c)] }) ∧
    ∀ (w : Bool), 3 ≤ s.failedStarts → ∃ s', exec (if w then .warmStart i else .coldStart i) s = .next s' ∧
      (i.recovery.verifies = true → same s' { State.reset with
          recovery := true, devno := s.devno, measure := [i.recovery.digest], failedStarts := s.failedStarts, failures := s.failures } ∧
        ∀ k j c, s.failures = [(k, j, c)] → s'.out = s.out ++ [.report "failed starts" [s.failedStarts, k, j, c]]) ∧
      (i.recovery.verifies = false → s'.out = s.out ∧ same s' { State.reset with
        held := true, bootFailed := true, devno := s.devno, failedStarts := s.failedStarts, failures := s.failures })
end

