-- ==== Sys2Proof/Laws/Sparse.lean ====
section
/-!
SUPPORT. Sparse maps and memory: reading after a write, and the canonical form that every memory operation keeps.
-/
namespace Sys2Proof.Machine

/-! ### Reading after a write -/

@[simp] theorem Sparse.get?_set_self {α : Type} (m : Sparse α) (k : Nat) (x : α) : Sparse.get? (Sparse.set m k x) k = some x := by
  induction m with
  | nil => simp [Sparse.set, Sparse.get?]
  | cons c r ih =>
    obtain ⟨j, y⟩ := c
    simp only [Sparse.set]
    split
    · simp [Sparse.get?]
    · split
      · simp [Sparse.get?]
      · rename_i h; simp [Sparse.get?, h, ih]

theorem Sparse.get?_set_ne {α : Type} (m : Sparse α) {k j : Nat} (x : α) (h : j ≠ k) :
    Sparse.get? (Sparse.set m k x) j = Sparse.get? m j := by
  induction m with
  | nil => simp [Sparse.set, Sparse.get?, Ne.symm h]
  | cons c r ih =>
    obtain ⟨i, y⟩ := c
    simp only [Sparse.set]
    split
    · simp [Sparse.get?, Ne.symm h]
    · split
      · rename_i e; subst e; simp [Sparse.get?, Ne.symm h]
      · simp [Sparse.get?, ih]

theorem Sparse.get?_set {α : Type} (m : Sparse α) (k j : Nat) (x : α) :
    Sparse.get? (Sparse.set m k x) j = if j = k then some x else Sparse.get? m j := by
  split
  · rename_i h; subst h; simp
  · rename_i h; exact Sparse.get?_set_ne m x h

@[simp] theorem Sparse.getD_set_self {α : Type} (m : Sparse α) (k : Nat) (x d : α) : Sparse.getD (Sparse.set m k x) k d = x := by
  simp [Sparse.getD]

theorem Sparse.getD_set_ne {α : Type} (m : Sparse α) {k j : Nat} (x d : α) (h : j ≠ k) :
    Sparse.getD (Sparse.set m k x) j d = Sparse.getD m j d := by
  simp [Sparse.getD, Sparse.get?_set_ne m x h]

theorem Sparse.getD_set {α : Type} (m : Sparse α) (k j : Nat) (x d : α) :
    Sparse.getD (Sparse.set m k x) j d = if j = k then x else Sparse.getD m j d := by
  split
  · rename_i h; subst h; simp
  · rename_i h; exact Sparse.getD_set_ne m x d h

theorem Sparse.get?_filter {α : Type} (m : Sparse α) (p : Nat → Bool) (j : Nat) :
    Sparse.get? (m.filter (fun c => p c.1)) j = if p j then Sparse.get? m j else none := by
  induction m with
  | nil => simp [Sparse.get?]
  | cons c r ih =>
    obtain ⟨i, y⟩ := c
    by_cases hi : p i = true
    · simp only [List.filter_cons, hi, if_true, Sparse.get?, ih]
      by_cases hj : i = j
      · subst hj; simp [hi]
      · simp [hj]
    · have hi' : p i = false := by simpa using hi
      simp only [List.filter_cons, hi', Sparse.get?]
      by_cases hj : i = j
      · subst hj; simp [hi', ih]
      · simp [hj, ih]

theorem Sparse.get?_erase {α : Type} (m : Sparse α) (k j : Nat) :
    Sparse.get? (Sparse.erase m k) j = if j = k then none else Sparse.get? m j := by
  have := Sparse.get?_filter m (fun i => i != k) j
  simp only [Sparse.erase, this, bne_iff_ne, ne_eq]
  by_cases h : j = k <;> simp [h]

@[simp] theorem Sparse.get?_erase_self {α : Type} (m : Sparse α) (k : Nat) : Sparse.get? (Sparse.erase m k) k = none := by
  simp [Sparse.get?_erase]

@[simp] theorem Sparse.getD_modify_self {α : Type} (m : Sparse α) (k : Nat) (d : α) (g : α → α) :
    Sparse.getD (Sparse.modify m k d g) k d = g (Sparse.getD m k d) := by simp [Sparse.modify]

theorem Sparse.getD_modify_ne {α : Type} (m : Sparse α) {k j : Nat} (d : α) (g : α → α) (h : j ≠ k) :
    Sparse.getD (Sparse.modify m k d g) j d = Sparse.getD m j d := by simp [Sparse.modify, Sparse.getD_set_ne m _ d h]

theorem Sparse.get?_mapVals {α : Type} (m : Sparse α) (g : Nat → α → α) (j : Nat) :
    Sparse.get? (Sparse.mapVals m g) j = (Sparse.get? m j).map (g j) := by
  induction m with
  | nil => simp [Sparse.mapVals, Sparse.get?]
  | cons c r ih =>
    obtain ⟨i, y⟩ := c
    simp only [Sparse.mapVals, List.map_cons, Sparse.get?] at ih ⊢
    by_cases h : i = j
    · subst h; simp
    · simp [h, ih]

/-- A byte reads as what was written last (R5). -/
theorem Memory.read_write (m : Memory) (a j : Nat) (b : Byte) :
    Memory.read (Memory.write m a b) j = if j = a then b else Memory.read m j := by
  unfold Memory.write Memory.read Sparse.getD
  split
  · rename_i h
    rw [Sparse.get?_erase]
    by_cases hj : j = a <;> simp [hj, h]
  · rw [Sparse.get?_set]
    by_cases hj : j = a <;> simp [hj]

theorem Memory.read_write_self (m : Memory) (a : Nat) (b : Byte) : Memory.read (Memory.write m a b) a = b := by
  simp [Memory.read_write]

theorem Memory.read_write_ne (m : Memory) {a j : Nat} (b : Byte) (h : j ≠ a) :
    Memory.read (Memory.write m a b) j = Memory.read m j := by simp [Memory.read_write, h]

/-- Bytes read as what was written last. -/
theorem Memory.read_writeN (m : Memory) (a j : Nat) (bs : List Byte) :
    Memory.read (Memory.writeN m a bs) j = if a ≤ j ∧ j < a + bs.length then bs.getD (j - a) 0 else Memory.read m j := by
  induction bs generalizing m a with
  | nil => simp only [Memory.writeN, List.length_nil, Nat.add_zero]; rw [if_neg (by omega)]
  | cons b r ih =>
    simp only [Memory.writeN, ih, Memory.read_write, List.length_cons]
    by_cases h1 : a + 1 ≤ j ∧ j < a + 1 + r.length
    · rw [if_pos h1, if_pos (by omega)]
      have : j - a = (j - (a + 1)) + 1 := by omega
      simp [this]
    · rw [if_neg h1]
      by_cases h2 : j = a
      · subst h2; simp
      · rw [if_neg h2, if_neg (by omega)]

/-! ### The canonical form -/

theorem risingFrom_mono {α : Type} {lo lo' : Nat} {m : List (Nat × α)} (h : risingFrom lo m = true) (hl : lo' ≤ lo) :
    risingFrom lo' m = true := by
  cases m with
  | nil => rfl
  | cons c r => obtain ⟨k, x⟩ := c; simp only [risingFrom, Bool.and_eq_true, decide_eq_true_eq] at h ⊢; exact ⟨by omega, h.2⟩

theorem risingFrom_set {α : Type} {lo : Nat} {m : Sparse α} (h : risingFrom lo m = true) (k : Nat) (x : α) (hk : lo ≤ k) :
    risingFrom lo (Sparse.set m k x) = true := by
  induction m generalizing lo with
  | nil => simp [Sparse.set, risingFrom, hk]
  | cons c r ih =>
    obtain ⟨j, y⟩ := c
    simp only [risingFrom, Bool.and_eq_true, decide_eq_true_eq] at h
    simp only [Sparse.set]
    split
    · simp only [risingFrom, Bool.and_eq_true, decide_eq_true_eq]; exact ⟨hk, by omega, h.2⟩
    · split
      · rename_i e; subst e; simp only [risingFrom, Bool.and_eq_true, decide_eq_true_eq]; exact ⟨hk, h.2⟩
      · simp only [risingFrom, Bool.and_eq_true, decide_eq_true_eq]
        exact ⟨h.1, ih h.2 (by omega)⟩

theorem risingFrom_filter {α : Type} {lo : Nat} {m : List (Nat × α)} (h : risingFrom lo m = true) (p : Nat × α → Bool) :
    risingFrom lo (m.filter p) = true := by
  induction m generalizing lo with
  | nil => rfl
  | cons c r ih =>
    obtain ⟨k, x⟩ := c
    simp only [risingFrom, Bool.and_eq_true, decide_eq_true_eq] at h
    simp only [List.filter_cons]
    split
    · simp only [risingFrom, Bool.and_eq_true, decide_eq_true_eq]; exact ⟨h.1, ih h.2⟩
    · exact risingFrom_mono (ih h.2) (by omega)

theorem Sparse.mem_set {α : Type} {m : Sparse α} {k : Nat} {x : α} {c : Nat × α} (h : c ∈ Sparse.set m k x) :
    c = (k, x) ∨ c ∈ m := by
  induction m with
  | nil => simpa [Sparse.set] using h
  | cons d r ih =>
    obtain ⟨j, y⟩ := d
    simp only [Sparse.set] at h
    split at h
    · simpa using h
    · split at h
      · rcases List.mem_cons.mp h with h | h
        · exact Or.inl h
        · exact Or.inr (List.mem_cons_of_mem _ h)
      · rcases List.mem_cons.mp h with h | h
        · exact Or.inr (h ▸ List.mem_cons_self)
        · rcases ih h with h | h
          · exact Or.inl h
          · exact Or.inr (List.mem_cons_of_mem _ h)

theorem Memory.wf_iff (m : Memory) : m.wf = true ↔ risingFrom 0 m = true ∧ ∀ c ∈ m, c.2 ≠ unlistedByte := by
  simp [Memory.wf]

/-- A write keeps the canonical form. -/
theorem Memory.wf_write {m : Memory} (h : m.wf = true) (a : Nat) (b : Byte) : (Memory.write m a b).wf = true := by
  rw [Memory.wf_iff] at h ⊢
  unfold Memory.write
  split
  · refine ⟨risingFrom_filter h.1 _, ?_⟩
    intro c hc
    exact h.2 c ((List.mem_filter.mp hc).1)
  · rename_i hb
    refine ⟨risingFrom_set h.1 a b (Nat.zero_le a), ?_⟩
    intro c hc
    rcases Sparse.mem_set hc with rfl | hc
    · exact hb
    · exact h.2 c hc

theorem Memory.wf_writeN {m : Memory} (h : m.wf = true) (a : Nat) (bs : List Byte) : (Memory.writeN m a bs).wf = true := by
  induction bs generalizing m a with
  | nil => exact h
  | cons b r ih => exact ih (Memory.wf_write h a b) (a + 1)

/-- Dropping bytes keeps the canonical form. -/
theorem Memory.wf_filter {m : Memory} (h : m.wf = true) (p : Host.Cell → Bool) : Memory.wf (m.filter p) = true := by
  rw [Memory.wf_iff] at h ⊢
  exact ⟨risingFrom_filter h.1 p, fun c hc => h.2 c ((List.mem_filter.mp hc).1)⟩

theorem Memory.wf_nil : Memory.wf [] = true := rfl

end Sys2Proof.Machine
end

