-- ==== Sys2Proof/Laws/State.lean ====
section
/-!
SUPPORT. What each plain update of the state leaves alone, one lemma for each field; and what the parts read after an update.
-/
namespace Sys2Proof.Machine

/-! ### setThread changes `threads` alone -/

@[simp] theorem State.setThread_clk (s : State) (tk : Nat) (t : Thread) : (s.setThread tk t).clk = s.clk := rfl
@[simp] theorem State.setThread_devno (s : State) (tk : Nat) (t : Thread) : (s.setThread tk t).devno = s.devno := rfl
@[simp] theorem State.setThread_asidbase (s : State) (tk : Nat) (t : Thread) : (s.setThread tk t).asidbase = s.asidbase := rfl
@[simp] theorem State.setThread_tvecsel (s : State) (tk : Nat) (t : Thread) : (s.setThread tk t).tvecsel = s.tvecsel := rfl
@[simp] theorem State.setThread_tvec (s : State) (tk : Nat) (t : Thread) : (s.setThread tk t).tvec = s.tvec := rfl
@[simp] theorem State.setThread_placement (s : State) (tk : Nat) (t : Thread) : (s.setThread tk t).placement = s.placement := rfl
@[simp] theorem State.setThread_mem (s : State) (tk : Nat) (t : Thread) : (s.setThread tk t).mem = s.mem := rfl
@[simp] theorem State.setThread_poison (s : State) (tk : Nat) (t : Thread) : (s.setThread tk t).poison = s.poison := rfl
@[simp] theorem State.setThread_lines (s : State) (tk : Nat) (t : Thread) : (s.setThread tk t).lines = s.lines := rfl
@[simp] theorem State.setThread_reqs (s : State) (tk : Nat) (t : Thread) : (s.setThread tk t).reqs = s.reqs := rfl
@[simp] theorem State.setThread_releases (s : State) (tk : Nat) (t : Thread) : (s.setThread tk t).releases = s.releases := rfl
@[simp] theorem State.setThread_fences (s : State) (tk : Nat) (t : Thread) : (s.setThread tk t).fences = s.fences := rfl
@[simp] theorem State.setThread_quads (s : State) (tk : Nat) (t : Thread) : (s.setThread tk t).quads = s.quads := rfl
@[simp] theorem State.setThread_branches (s : State) (tk : Nat) (t : Thread) : (s.setThread tk t).branches = s.branches := rfl
@[simp] theorem State.setThread_walks (s : State) (tk : Nat) (t : Thread) : (s.setThread tk t).walks = s.walks := rfl
@[simp] theorem State.setThread_ckpts (s : State) (tk : Nat) (t : Thread) : (s.setThread tk t).ckpts = s.ckpts := rfl
@[simp] theorem State.setThread_taken (s : State) (tk : Nat) (t : Thread) : (s.setThread tk t).taken = s.taken := rfl
@[simp] theorem State.setThread_blocks (s : State) (tk : Nat) (t : Thread) : (s.setThread tk t).blocks = s.blocks := rfl
@[simp] theorem State.setThread_slices (s : State) (tk : Nat) (t : Thread) : (s.setThread tk t).slices = s.slices := rfl
@[simp] theorem State.setThread_cores (s : State) (tk : Nat) (t : Thread) : (s.setThread tk t).cores = s.cores := rfl
@[simp] theorem State.setThread_sites (s : State) (tk : Nat) (t : Thread) : (s.setThread tk t).sites = s.sites := rfl
@[simp] theorem State.setThread_queues (s : State) (tk : Nat) (t : Thread) : (s.setThread tk t).queues = s.queues := rfl
@[simp] theorem State.setThread_turns (s : State) (tk : Nat) (t : Thread) : (s.setThread tk t).turns = s.turns := rfl
@[simp] theorem State.setThread_launches (s : State) (tk : Nat) (t : Thread) : (s.setThread tk t).launches = s.launches := rfl
@[simp] theorem State.setThread_graphs (s : State) (tk : Nat) (t : Thread) : (s.setThread tk t).graphs = s.graphs := rfl
@[simp] theorem State.setThread_runs (s : State) (tk : Nat) (t : Thread) : (s.setThread tk t).runs = s.runs := rfl
@[simp] theorem State.setThread_saved (s : State) (tk : Nat) (t : Thread) : (s.setThread tk t).saved = s.saved := rfl
@[simp] theorem State.setThread_badAreas (s : State) (tk : Nat) (t : Thread) : (s.setThread tk t).badAreas = s.badAreas := rfl
@[simp] theorem State.setThread_migrations (s : State) (tk : Nat) (t : Thread) : (s.setThread tk t).migrations = s.migrations := rfl
@[simp] theorem State.setThread_quiltSince (s : State) (tk : Nat) (t : Thread) : (s.setThread tk t).quiltSince = s.quiltSince := rfl
@[simp] theorem State.setThread_drainMax (s : State) (tk : Nat) (t : Thread) : (s.setThread tk t).drainMax = s.drainMax := rfl
@[simp] theorem State.setThread_routes (s : State) (tk : Nat) (t : Thread) : (s.setThread tk t).routes = s.routes := rfl
@[simp] theorem State.setThread_filter (s : State) (tk : Nat) (t : Thread) : (s.setThread tk t).filter = s.filter := rfl
@[simp] theorem State.setThread_refusedFrom (s : State) (tk : Nat) (t : Thread) : (s.setThread tk t).refusedFrom = s.refusedFrom := rfl
@[simp] theorem State.setThread_qps (s : State) (tk : Nat) (t : Thread) : (s.setThread tk t).qps = s.qps := rfl
@[simp] theorem State.setThread_cycleWrites (s : State) (tk : Nat) (t : Thread) : (s.setThread tk t).cycleWrites = s.cycleWrites := rfl
@[simp] theorem State.setThread_out (s : State) (tk : Nat) (t : Thread) : (s.setThread tk t).out = s.out := rfl
@[simp] theorem State.setThread_measure (s : State) (tk : Nat) (t : Thread) : (s.setThread tk t).measure = s.measure := rfl
@[simp] theorem State.setThread_measureLocked (s : State) (tk : Nat) (t : Thread) : (s.setThread tk t).measureLocked = s.measureLocked := rfl
@[simp] theorem State.setThread_starts (s : State) (tk : Nat) (t : Thread) : (s.setThread tk t).starts = s.starts := rfl
@[simp] theorem State.setThread_failedStarts (s : State) (tk : Nat) (t : Thread) : (s.setThread tk t).failedStarts = s.failedStarts := rfl
@[simp] theorem State.setThread_failures (s : State) (tk : Nat) (t : Thread) : (s.setThread tk t).failures = s.failures := rfl
@[simp] theorem State.setThread_bootFailed (s : State) (tk : Nat) (t : Thread) : (s.setThread tk t).bootFailed = s.bootFailed := rfl
@[simp] theorem State.setThread_recovery (s : State) (tk : Nat) (t : Thread) : (s.setThread tk t).recovery = s.recovery := rfl
@[simp] theorem State.setThread_held (s : State) (tk : Nat) (t : Thread) : (s.setThread tk t).held = s.held := rfl
@[simp] theorem State.setThread_group (s : State) (tk : Nat) (t : Thread) : (s.setThread tk t).group = s.group := rfl
@[simp] theorem State.setThread_floorState (s : State) (tk : Nat) (t : Thread) : (s.setThread tk t).floorState = s.floorState := rfl
@[simp] theorem State.setThread_cool (s : State) (tk : Nat) (t : Thread) : (s.setThread tk t).cool = s.cool := rfl
@[simp] theorem State.setThread_hemFailed (s : State) (tk : Nat) (t : Thread) : (s.setThread tk t).hemFailed = s.hemFailed := rfl
@[simp] theorem State.setThread_portsDown (s : State) (tk : Nat) (t : Thread) : (s.setThread tk t).portsDown = s.portsDown := rfl
@[simp] theorem State.setThread_brk (s : State) (tk : Nat) (t : Thread) : (s.setThread tk t).brk = s.brk := rfl
@[simp] theorem State.setThread_logs (s : State) (tk : Nat) (t : Thread) : (s.setThread tk t).logs = s.logs := rfl
@[simp] theorem State.setThread_routines (s : State) (tk : Nat) (t : Thread) : (s.setThread tk t).routines = s.routines := rfl
@[simp] theorem State.setThread_microcode (s : State) (tk : Nat) (t : Thread) : (s.setThread tk t).microcode = s.microcode := rfl
@[simp] theorem State.setThread_agenda (s : State) (tk : Nat) (t : Thread) : (s.setThread tk t).agenda = s.agenda := rfl
@[simp] theorem State.setThread_issueQ (s : State) (tk : Nat) (t : Thread) : (s.setThread tk t).issueQ = s.issueQ := rfl
@[simp] theorem State.setThread_cur (s : State) (tk : Nat) (t : Thread) : (s.setThread tk t).cur = s.cur := rfl
@[simp] theorem State.setThread_nextId (s : State) (tk : Nat) (t : Thread) : (s.setThread tk t).nextId = s.nextId := rfl
@[simp] theorem State.setThread_fresh (s : State) (tk : Nat) (t : Thread) : (s.setThread tk t).fresh = s.fresh := rfl

/-! ### setBlock changes `blocks` alone -/

@[simp] theorem State.setBlock_clk (s : State) (bk : Nat) (b : Block) : (s.setBlock bk b).clk = s.clk := rfl
@[simp] theorem State.setBlock_devno (s : State) (bk : Nat) (b : Block) : (s.setBlock bk b).devno = s.devno := rfl
@[simp] theorem State.setBlock_asidbase (s : State) (bk : Nat) (b : Block) : (s.setBlock bk b).asidbase = s.asidbase := rfl
@[simp] theorem State.setBlock_tvecsel (s : State) (bk : Nat) (b : Block) : (s.setBlock bk b).tvecsel = s.tvecsel := rfl
@[simp] theorem State.setBlock_tvec (s : State) (bk : Nat) (b : Block) : (s.setBlock bk b).tvec = s.tvec := rfl
@[simp] theorem State.setBlock_placement (s : State) (bk : Nat) (b : Block) : (s.setBlock bk b).placement = s.placement := rfl
@[simp] theorem State.setBlock_mem (s : State) (bk : Nat) (b : Block) : (s.setBlock bk b).mem = s.mem := rfl
@[simp] theorem State.setBlock_poison (s : State) (bk : Nat) (b : Block) : (s.setBlock bk b).poison = s.poison := rfl
@[simp] theorem State.setBlock_lines (s : State) (bk : Nat) (b : Block) : (s.setBlock bk b).lines = s.lines := rfl
@[simp] theorem State.setBlock_reqs (s : State) (bk : Nat) (b : Block) : (s.setBlock bk b).reqs = s.reqs := rfl
@[simp] theorem State.setBlock_releases (s : State) (bk : Nat) (b : Block) : (s.setBlock bk b).releases = s.releases := rfl
@[simp] theorem State.setBlock_fences (s : State) (bk : Nat) (b : Block) : (s.setBlock bk b).fences = s.fences := rfl
@[simp] theorem State.setBlock_quads (s : State) (bk : Nat) (b : Block) : (s.setBlock bk b).quads = s.quads := rfl
@[simp] theorem State.setBlock_branches (s : State) (bk : Nat) (b : Block) : (s.setBlock bk b).branches = s.branches := rfl
@[simp] theorem State.setBlock_walks (s : State) (bk : Nat) (b : Block) : (s.setBlock bk b).walks = s.walks := rfl
@[simp] theorem State.setBlock_threads (s : State) (bk : Nat) (b : Block) : (s.setBlock bk b).threads = s.threads := rfl
@[simp] theorem State.setBlock_ckpts (s : State) (bk : Nat) (b : Block) : (s.setBlock bk b).ckpts = s.ckpts := rfl
@[simp] theorem State.setBlock_taken (s : State) (bk : Nat) (b : Block) : (s.setBlock bk b).taken = s.taken := rfl
@[simp] theorem State.setBlock_slices (s : State) (bk : Nat) (b : Block) : (s.setBlock bk b).slices = s.slices := rfl
@[simp] theorem State.setBlock_cores (s : State) (bk : Nat) (b : Block) : (s.setBlock bk b).cores = s.cores := rfl
@[simp] theorem State.setBlock_sites (s : State) (bk : Nat) (b : Block) : (s.setBlock bk b).sites = s.sites := rfl
@[simp] theorem State.setBlock_queues (s : State) (bk : Nat) (b : Block) : (s.setBlock bk b).queues = s.queues := rfl
@[simp] theorem State.setBlock_turns (s : State) (bk : Nat) (b : Block) : (s.setBlock bk b).turns = s.turns := rfl
@[simp] theorem State.setBlock_launches (s : State) (bk : Nat) (b : Block) : (s.setBlock bk b).launches = s.launches := rfl
@[simp] theorem State.setBlock_graphs (s : State) (bk : Nat) (b : Block) : (s.setBlock bk b).graphs = s.graphs := rfl
@[simp] theorem State.setBlock_runs (s : State) (bk : Nat) (b : Block) : (s.setBlock bk b).runs = s.runs := rfl
@[simp] theorem State.setBlock_saved (s : State) (bk : Nat) (b : Block) : (s.setBlock bk b).saved = s.saved := rfl
@[simp] theorem State.setBlock_badAreas (s : State) (bk : Nat) (b : Block) : (s.setBlock bk b).badAreas = s.badAreas := rfl
@[simp] theorem State.setBlock_migrations (s : State) (bk : Nat) (b : Block) : (s.setBlock bk b).migrations = s.migrations := rfl
@[simp] theorem State.setBlock_quiltSince (s : State) (bk : Nat) (b : Block) : (s.setBlock bk b).quiltSince = s.quiltSince := rfl
@[simp] theorem State.setBlock_drainMax (s : State) (bk : Nat) (b : Block) : (s.setBlock bk b).drainMax = s.drainMax := rfl
@[simp] theorem State.setBlock_routes (s : State) (bk : Nat) (b : Block) : (s.setBlock bk b).routes = s.routes := rfl
@[simp] theorem State.setBlock_filter (s : State) (bk : Nat) (b : Block) : (s.setBlock bk b).filter = s.filter := rfl
@[simp] theorem State.setBlock_refusedFrom (s : State) (bk : Nat) (b : Block) : (s.setBlock bk b).refusedFrom = s.refusedFrom := rfl
@[simp] theorem State.setBlock_qps (s : State) (bk : Nat) (b : Block) : (s.setBlock bk b).qps = s.qps := rfl
@[simp] theorem State.setBlock_cycleWrites (s : State) (bk : Nat) (b : Block) : (s.setBlock bk b).cycleWrites = s.cycleWrites := rfl
@[simp] theorem State.setBlock_out (s : State) (bk : Nat) (b : Block) : (s.setBlock bk b).out = s.out := rfl
@[simp] theorem State.setBlock_measure (s : State) (bk : Nat) (b : Block) : (s.setBlock bk b).measure = s.measure := rfl
@[simp] theorem State.setBlock_measureLocked (s : State) (bk : Nat) (b : Block) : (s.setBlock bk b).measureLocked = s.measureLocked := rfl
@[simp] theorem State.setBlock_starts (s : State) (bk : Nat) (b : Block) : (s.setBlock bk b).starts = s.starts := rfl
@[simp] theorem State.setBlock_failedStarts (s : State) (bk : Nat) (b : Block) : (s.setBlock bk b).failedStarts = s.failedStarts := rfl
@[simp] theorem State.setBlock_failures (s : State) (bk : Nat) (b : Block) : (s.setBlock bk b).failures = s.failures := rfl
@[simp] theorem State.setBlock_bootFailed (s : State) (bk : Nat) (b : Block) : (s.setBlock bk b).bootFailed = s.bootFailed := rfl
@[simp] theorem State.setBlock_recovery (s : State) (bk : Nat) (b : Block) : (s.setBlock bk b).recovery = s.recovery := rfl
@[simp] theorem State.setBlock_held (s : State) (bk : Nat) (b : Block) : (s.setBlock bk b).held = s.held := rfl
@[simp] theorem State.setBlock_group (s : State) (bk : Nat) (b : Block) : (s.setBlock bk b).group = s.group := rfl
@[simp] theorem State.setBlock_floorState (s : State) (bk : Nat) (b : Block) : (s.setBlock bk b).floorState = s.floorState := rfl
@[simp] theorem State.setBlock_cool (s : State) (bk : Nat) (b : Block) : (s.setBlock bk b).cool = s.cool := rfl
@[simp] theorem State.setBlock_hemFailed (s : State) (bk : Nat) (b : Block) : (s.setBlock bk b).hemFailed = s.hemFailed := rfl
@[simp] theorem State.setBlock_portsDown (s : State) (bk : Nat) (b : Block) : (s.setBlock bk b).portsDown = s.portsDown := rfl
@[simp] theorem State.setBlock_brk (s : State) (bk : Nat) (b : Block) : (s.setBlock bk b).brk = s.brk := rfl
@[simp] theorem State.setBlock_logs (s : State) (bk : Nat) (b : Block) : (s.setBlock bk b).logs = s.logs := rfl
@[simp] theorem State.setBlock_routines (s : State) (bk : Nat) (b : Block) : (s.setBlock bk b).routines = s.routines := rfl
@[simp] theorem State.setBlock_microcode (s : State) (bk : Nat) (b : Block) : (s.setBlock bk b).microcode = s.microcode := rfl
@[simp] theorem State.setBlock_agenda (s : State) (bk : Nat) (b : Block) : (s.setBlock bk b).agenda = s.agenda := rfl
@[simp] theorem State.setBlock_issueQ (s : State) (bk : Nat) (b : Block) : (s.setBlock bk b).issueQ = s.issueQ := rfl
@[simp] theorem State.setBlock_cur (s : State) (bk : Nat) (b : Block) : (s.setBlock bk b).cur = s.cur := rfl
@[simp] theorem State.setBlock_nextId (s : State) (bk : Nat) (b : Block) : (s.setBlock bk b).nextId = s.nextId := rfl
@[simp] theorem State.setBlock_fresh (s : State) (bk : Nat) (b : Block) : (s.setBlock bk b).fresh = s.fresh := rfl

/-! ### setCore changes `cores` alone -/

@[simp] theorem State.setCore_clk (s : State) (c : Nat) (x : Core) : (s.setCore c x).clk = s.clk := rfl
@[simp] theorem State.setCore_devno (s : State) (c : Nat) (x : Core) : (s.setCore c x).devno = s.devno := rfl
@[simp] theorem State.setCore_asidbase (s : State) (c : Nat) (x : Core) : (s.setCore c x).asidbase = s.asidbase := rfl
@[simp] theorem State.setCore_tvecsel (s : State) (c : Nat) (x : Core) : (s.setCore c x).tvecsel = s.tvecsel := rfl
@[simp] theorem State.setCore_tvec (s : State) (c : Nat) (x : Core) : (s.setCore c x).tvec = s.tvec := rfl
@[simp] theorem State.setCore_placement (s : State) (c : Nat) (x : Core) : (s.setCore c x).placement = s.placement := rfl
@[simp] theorem State.setCore_mem (s : State) (c : Nat) (x : Core) : (s.setCore c x).mem = s.mem := rfl
@[simp] theorem State.setCore_poison (s : State) (c : Nat) (x : Core) : (s.setCore c x).poison = s.poison := rfl
@[simp] theorem State.setCore_lines (s : State) (c : Nat) (x : Core) : (s.setCore c x).lines = s.lines := rfl
@[simp] theorem State.setCore_reqs (s : State) (c : Nat) (x : Core) : (s.setCore c x).reqs = s.reqs := rfl
@[simp] theorem State.setCore_releases (s : State) (c : Nat) (x : Core) : (s.setCore c x).releases = s.releases := rfl
@[simp] theorem State.setCore_fences (s : State) (c : Nat) (x : Core) : (s.setCore c x).fences = s.fences := rfl
@[simp] theorem State.setCore_quads (s : State) (c : Nat) (x : Core) : (s.setCore c x).quads = s.quads := rfl
@[simp] theorem State.setCore_branches (s : State) (c : Nat) (x : Core) : (s.setCore c x).branches = s.branches := rfl
@[simp] theorem State.setCore_walks (s : State) (c : Nat) (x : Core) : (s.setCore c x).walks = s.walks := rfl
@[simp] theorem State.setCore_threads (s : State) (c : Nat) (x : Core) : (s.setCore c x).threads = s.threads := rfl
@[simp] theorem State.setCore_ckpts (s : State) (c : Nat) (x : Core) : (s.setCore c x).ckpts = s.ckpts := rfl
@[simp] theorem State.setCore_taken (s : State) (c : Nat) (x : Core) : (s.setCore c x).taken = s.taken := rfl
@[simp] theorem State.setCore_blocks (s : State) (c : Nat) (x : Core) : (s.setCore c x).blocks = s.blocks := rfl
@[simp] theorem State.setCore_slices (s : State) (c : Nat) (x : Core) : (s.setCore c x).slices = s.slices := rfl
@[simp] theorem State.setCore_sites (s : State) (c : Nat) (x : Core) : (s.setCore c x).sites = s.sites := rfl
@[simp] theorem State.setCore_queues (s : State) (c : Nat) (x : Core) : (s.setCore c x).queues = s.queues := rfl
@[simp] theorem State.setCore_turns (s : State) (c : Nat) (x : Core) : (s.setCore c x).turns = s.turns := rfl
@[simp] theorem State.setCore_launches (s : State) (c : Nat) (x : Core) : (s.setCore c x).launches = s.launches := rfl
@[simp] theorem State.setCore_graphs (s : State) (c : Nat) (x : Core) : (s.setCore c x).graphs = s.graphs := rfl
@[simp] theorem State.setCore_runs (s : State) (c : Nat) (x : Core) : (s.setCore c x).runs = s.runs := rfl
@[simp] theorem State.setCore_saved (s : State) (c : Nat) (x : Core) : (s.setCore c x).saved = s.saved := rfl
@[simp] theorem State.setCore_badAreas (s : State) (c : Nat) (x : Core) : (s.setCore c x).badAreas = s.badAreas := rfl
@[simp] theorem State.setCore_migrations (s : State) (c : Nat) (x : Core) : (s.setCore c x).migrations = s.migrations := rfl
@[simp] theorem State.setCore_quiltSince (s : State) (c : Nat) (x : Core) : (s.setCore c x).quiltSince = s.quiltSince := rfl
@[simp] theorem State.setCore_drainMax (s : State) (c : Nat) (x : Core) : (s.setCore c x).drainMax = s.drainMax := rfl
@[simp] theorem State.setCore_routes (s : State) (c : Nat) (x : Core) : (s.setCore c x).routes = s.routes := rfl
@[simp] theorem State.setCore_filter (s : State) (c : Nat) (x : Core) : (s.setCore c x).filter = s.filter := rfl
@[simp] theorem State.setCore_refusedFrom (s : State) (c : Nat) (x : Core) : (s.setCore c x).refusedFrom = s.refusedFrom := rfl
@[simp] theorem State.setCore_qps (s : State) (c : Nat) (x : Core) : (s.setCore c x).qps = s.qps := rfl
@[simp] theorem State.setCore_cycleWrites (s : State) (c : Nat) (x : Core) : (s.setCore c x).cycleWrites = s.cycleWrites := rfl
@[simp] theorem State.setCore_out (s : State) (c : Nat) (x : Core) : (s.setCore c x).out = s.out := rfl
@[simp] theorem State.setCore_measure (s : State) (c : Nat) (x : Core) : (s.setCore c x).measure = s.measure := rfl
@[simp] theorem State.setCore_measureLocked (s : State) (c : Nat) (x : Core) : (s.setCore c x).measureLocked = s.measureLocked := rfl
@[simp] theorem State.setCore_starts (s : State) (c : Nat) (x : Core) : (s.setCore c x).starts = s.starts := rfl
@[simp] theorem State.setCore_failedStarts (s : State) (c : Nat) (x : Core) : (s.setCore c x).failedStarts = s.failedStarts := rfl
@[simp] theorem State.setCore_failures (s : State) (c : Nat) (x : Core) : (s.setCore c x).failures = s.failures := rfl
@[simp] theorem State.setCore_bootFailed (s : State) (c : Nat) (x : Core) : (s.setCore c x).bootFailed = s.bootFailed := rfl
@[simp] theorem State.setCore_recovery (s : State) (c : Nat) (x : Core) : (s.setCore c x).recovery = s.recovery := rfl
@[simp] theorem State.setCore_held (s : State) (c : Nat) (x : Core) : (s.setCore c x).held = s.held := rfl
@[simp] theorem State.setCore_group (s : State) (c : Nat) (x : Core) : (s.setCore c x).group = s.group := rfl
@[simp] theorem State.setCore_floorState (s : State) (c : Nat) (x : Core) : (s.setCore c x).floorState = s.floorState := rfl
@[simp] theorem State.setCore_cool (s : State) (c : Nat) (x : Core) : (s.setCore c x).cool = s.cool := rfl
@[simp] theorem State.setCore_hemFailed (s : State) (c : Nat) (x : Core) : (s.setCore c x).hemFailed = s.hemFailed := rfl
@[simp] theorem State.setCore_portsDown (s : State) (c : Nat) (x : Core) : (s.setCore c x).portsDown = s.portsDown := rfl
@[simp] theorem State.setCore_brk (s : State) (c : Nat) (x : Core) : (s.setCore c x).brk = s.brk := rfl
@[simp] theorem State.setCore_logs (s : State) (c : Nat) (x : Core) : (s.setCore c x).logs = s.logs := rfl
@[simp] theorem State.setCore_routines (s : State) (c : Nat) (x : Core) : (s.setCore c x).routines = s.routines := rfl
@[simp] theorem State.setCore_microcode (s : State) (c : Nat) (x : Core) : (s.setCore c x).microcode = s.microcode := rfl
@[simp] theorem State.setCore_agenda (s : State) (c : Nat) (x : Core) : (s.setCore c x).agenda = s.agenda := rfl
@[simp] theorem State.setCore_issueQ (s : State) (c : Nat) (x : Core) : (s.setCore c x).issueQ = s.issueQ := rfl
@[simp] theorem State.setCore_cur (s : State) (c : Nat) (x : Core) : (s.setCore c x).cur = s.cur := rfl
@[simp] theorem State.setCore_nextId (s : State) (c : Nat) (x : Core) : (s.setCore c x).nextId = s.nextId := rfl
@[simp] theorem State.setCore_fresh (s : State) (c : Nat) (x : Core) : (s.setCore c x).fresh = s.fresh := rfl

/-! ### setSite changes `sites` alone -/

@[simp] theorem State.setSite_clk (s : State) (i : Nat) (x : Site) : (s.setSite i x).clk = s.clk := rfl
@[simp] theorem State.setSite_devno (s : State) (i : Nat) (x : Site) : (s.setSite i x).devno = s.devno := rfl
@[simp] theorem State.setSite_asidbase (s : State) (i : Nat) (x : Site) : (s.setSite i x).asidbase = s.asidbase := rfl
@[simp] theorem State.setSite_tvecsel (s : State) (i : Nat) (x : Site) : (s.setSite i x).tvecsel = s.tvecsel := rfl
@[simp] theorem State.setSite_tvec (s : State) (i : Nat) (x : Site) : (s.setSite i x).tvec = s.tvec := rfl
@[simp] theorem State.setSite_placement (s : State) (i : Nat) (x : Site) : (s.setSite i x).placement = s.placement := rfl
@[simp] theorem State.setSite_mem (s : State) (i : Nat) (x : Site) : (s.setSite i x).mem = s.mem := rfl
@[simp] theorem State.setSite_poison (s : State) (i : Nat) (x : Site) : (s.setSite i x).poison = s.poison := rfl
@[simp] theorem State.setSite_lines (s : State) (i : Nat) (x : Site) : (s.setSite i x).lines = s.lines := rfl
@[simp] theorem State.setSite_reqs (s : State) (i : Nat) (x : Site) : (s.setSite i x).reqs = s.reqs := rfl
@[simp] theorem State.setSite_releases (s : State) (i : Nat) (x : Site) : (s.setSite i x).releases = s.releases := rfl
@[simp] theorem State.setSite_fences (s : State) (i : Nat) (x : Site) : (s.setSite i x).fences = s.fences := rfl
@[simp] theorem State.setSite_quads (s : State) (i : Nat) (x : Site) : (s.setSite i x).quads = s.quads := rfl
@[simp] theorem State.setSite_branches (s : State) (i : Nat) (x : Site) : (s.setSite i x).branches = s.branches := rfl
@[simp] theorem State.setSite_walks (s : State) (i : Nat) (x : Site) : (s.setSite i x).walks = s.walks := rfl
@[simp] theorem State.setSite_threads (s : State) (i : Nat) (x : Site) : (s.setSite i x).threads = s.threads := rfl
@[simp] theorem State.setSite_ckpts (s : State) (i : Nat) (x : Site) : (s.setSite i x).ckpts = s.ckpts := rfl
@[simp] theorem State.setSite_taken (s : State) (i : Nat) (x : Site) : (s.setSite i x).taken = s.taken := rfl
@[simp] theorem State.setSite_blocks (s : State) (i : Nat) (x : Site) : (s.setSite i x).blocks = s.blocks := rfl
@[simp] theorem State.setSite_slices (s : State) (i : Nat) (x : Site) : (s.setSite i x).slices = s.slices := rfl
@[simp] theorem State.setSite_cores (s : State) (i : Nat) (x : Site) : (s.setSite i x).cores = s.cores := rfl
@[simp] theorem State.setSite_queues (s : State) (i : Nat) (x : Site) : (s.setSite i x).queues = s.queues := rfl
@[simp] theorem State.setSite_turns (s : State) (i : Nat) (x : Site) : (s.setSite i x).turns = s.turns := rfl
@[simp] theorem State.setSite_launches (s : State) (i : Nat) (x : Site) : (s.setSite i x).launches = s.launches := rfl
@[simp] theorem State.setSite_graphs (s : State) (i : Nat) (x : Site) : (s.setSite i x).graphs = s.graphs := rfl
@[simp] theorem State.setSite_runs (s : State) (i : Nat) (x : Site) : (s.setSite i x).runs = s.runs := rfl
@[simp] theorem State.setSite_saved (s : State) (i : Nat) (x : Site) : (s.setSite i x).saved = s.saved := rfl
@[simp] theorem State.setSite_badAreas (s : State) (i : Nat) (x : Site) : (s.setSite i x).badAreas = s.badAreas := rfl
@[simp] theorem State.setSite_migrations (s : State) (i : Nat) (x : Site) : (s.setSite i x).migrations = s.migrations := rfl
@[simp] theorem State.setSite_quiltSince (s : State) (i : Nat) (x : Site) : (s.setSite i x).quiltSince = s.quiltSince := rfl
@[simp] theorem State.setSite_drainMax (s : State) (i : Nat) (x : Site) : (s.setSite i x).drainMax = s.drainMax := rfl
@[simp] theorem State.setSite_routes (s : State) (i : Nat) (x : Site) : (s.setSite i x).routes = s.routes := rfl
@[simp] theorem State.setSite_filter (s : State) (i : Nat) (x : Site) : (s.setSite i x).filter = s.filter := rfl
@[simp] theorem State.setSite_refusedFrom (s : State) (i : Nat) (x : Site) : (s.setSite i x).refusedFrom = s.refusedFrom := rfl
@[simp] theorem State.setSite_qps (s : State) (i : Nat) (x : Site) : (s.setSite i x).qps = s.qps := rfl
@[simp] theorem State.setSite_cycleWrites (s : State) (i : Nat) (x : Site) : (s.setSite i x).cycleWrites = s.cycleWrites := rfl
@[simp] theorem State.setSite_out (s : State) (i : Nat) (x : Site) : (s.setSite i x).out = s.out := rfl
@[simp] theorem State.setSite_measure (s : State) (i : Nat) (x : Site) : (s.setSite i x).measure = s.measure := rfl
@[simp] theorem State.setSite_measureLocked (s : State) (i : Nat) (x : Site) : (s.setSite i x).measureLocked = s.measureLocked := rfl
@[simp] theorem State.setSite_starts (s : State) (i : Nat) (x : Site) : (s.setSite i x).starts = s.starts := rfl
@[simp] theorem State.setSite_failedStarts (s : State) (i : Nat) (x : Site) : (s.setSite i x).failedStarts = s.failedStarts := rfl
@[simp] theorem State.setSite_failures (s : State) (i : Nat) (x : Site) : (s.setSite i x).failures = s.failures := rfl
@[simp] theorem State.setSite_bootFailed (s : State) (i : Nat) (x : Site) : (s.setSite i x).bootFailed = s.bootFailed := rfl
@[simp] theorem State.setSite_recovery (s : State) (i : Nat) (x : Site) : (s.setSite i x).recovery = s.recovery := rfl
@[simp] theorem State.setSite_held (s : State) (i : Nat) (x : Site) : (s.setSite i x).held = s.held := rfl
@[simp] theorem State.setSite_group (s : State) (i : Nat) (x : Site) : (s.setSite i x).group = s.group := rfl
@[simp] theorem State.setSite_floorState (s : State) (i : Nat) (x : Site) : (s.setSite i x).floorState = s.floorState := rfl
@[simp] theorem State.setSite_cool (s : State) (i : Nat) (x : Site) : (s.setSite i x).cool = s.cool := rfl
@[simp] theorem State.setSite_hemFailed (s : State) (i : Nat) (x : Site) : (s.setSite i x).hemFailed = s.hemFailed := rfl
@[simp] theorem State.setSite_portsDown (s : State) (i : Nat) (x : Site) : (s.setSite i x).portsDown = s.portsDown := rfl
@[simp] theorem State.setSite_brk (s : State) (i : Nat) (x : Site) : (s.setSite i x).brk = s.brk := rfl
@[simp] theorem State.setSite_logs (s : State) (i : Nat) (x : Site) : (s.setSite i x).logs = s.logs := rfl
@[simp] theorem State.setSite_routines (s : State) (i : Nat) (x : Site) : (s.setSite i x).routines = s.routines := rfl
@[simp] theorem State.setSite_microcode (s : State) (i : Nat) (x : Site) : (s.setSite i x).microcode = s.microcode := rfl
@[simp] theorem State.setSite_agenda (s : State) (i : Nat) (x : Site) : (s.setSite i x).agenda = s.agenda := rfl
@[simp] theorem State.setSite_issueQ (s : State) (i : Nat) (x : Site) : (s.setSite i x).issueQ = s.issueQ := rfl
@[simp] theorem State.setSite_cur (s : State) (i : Nat) (x : Site) : (s.setSite i x).cur = s.cur := rfl
@[simp] theorem State.setSite_nextId (s : State) (i : Nat) (x : Site) : (s.setSite i x).nextId = s.nextId := rfl
@[simp] theorem State.setSite_fresh (s : State) (i : Nat) (x : Site) : (s.setSite i x).fresh = s.fresh := rfl

/-! ### setSlice changes `slices` alone -/

@[simp] theorem State.setSlice_clk (s : State) (c sl : Nat) (x : Slice) : (s.setSlice c sl x).clk = s.clk := rfl
@[simp] theorem State.setSlice_devno (s : State) (c sl : Nat) (x : Slice) : (s.setSlice c sl x).devno = s.devno := rfl
@[simp] theorem State.setSlice_asidbase (s : State) (c sl : Nat) (x : Slice) : (s.setSlice c sl x).asidbase = s.asidbase := rfl
@[simp] theorem State.setSlice_tvecsel (s : State) (c sl : Nat) (x : Slice) : (s.setSlice c sl x).tvecsel = s.tvecsel := rfl
@[simp] theorem State.setSlice_tvec (s : State) (c sl : Nat) (x : Slice) : (s.setSlice c sl x).tvec = s.tvec := rfl
@[simp] theorem State.setSlice_placement (s : State) (c sl : Nat) (x : Slice) : (s.setSlice c sl x).placement = s.placement := rfl
@[simp] theorem State.setSlice_mem (s : State) (c sl : Nat) (x : Slice) : (s.setSlice c sl x).mem = s.mem := rfl
@[simp] theorem State.setSlice_poison (s : State) (c sl : Nat) (x : Slice) : (s.setSlice c sl x).poison = s.poison := rfl
@[simp] theorem State.setSlice_lines (s : State) (c sl : Nat) (x : Slice) : (s.setSlice c sl x).lines = s.lines := rfl
@[simp] theorem State.setSlice_reqs (s : State) (c sl : Nat) (x : Slice) : (s.setSlice c sl x).reqs = s.reqs := rfl
@[simp] theorem State.setSlice_releases (s : State) (c sl : Nat) (x : Slice) : (s.setSlice c sl x).releases = s.releases := rfl
@[simp] theorem State.setSlice_fences (s : State) (c sl : Nat) (x : Slice) : (s.setSlice c sl x).fences = s.fences := rfl
@[simp] theorem State.setSlice_quads (s : State) (c sl : Nat) (x : Slice) : (s.setSlice c sl x).quads = s.quads := rfl
@[simp] theorem State.setSlice_branches (s : State) (c sl : Nat) (x : Slice) : (s.setSlice c sl x).branches = s.branches := rfl
@[simp] theorem State.setSlice_walks (s : State) (c sl : Nat) (x : Slice) : (s.setSlice c sl x).walks = s.walks := rfl
@[simp] theorem State.setSlice_threads (s : State) (c sl : Nat) (x : Slice) : (s.setSlice c sl x).threads = s.threads := rfl
@[simp] theorem State.setSlice_ckpts (s : State) (c sl : Nat) (x : Slice) : (s.setSlice c sl x).ckpts = s.ckpts := rfl
@[simp] theorem State.setSlice_taken (s : State) (c sl : Nat) (x : Slice) : (s.setSlice c sl x).taken = s.taken := rfl
@[simp] theorem State.setSlice_blocks (s : State) (c sl : Nat) (x : Slice) : (s.setSlice c sl x).blocks = s.blocks := rfl
@[simp] theorem State.setSlice_cores (s : State) (c sl : Nat) (x : Slice) : (s.setSlice c sl x).cores = s.cores := rfl
@[simp] theorem State.setSlice_sites (s : State) (c sl : Nat) (x : Slice) : (s.setSlice c sl x).sites = s.sites := rfl
@[simp] theorem State.setSlice_queues (s : State) (c sl : Nat) (x : Slice) : (s.setSlice c sl x).queues = s.queues := rfl
@[simp] theorem State.setSlice_turns (s : State) (c sl : Nat) (x : Slice) : (s.setSlice c sl x).turns = s.turns := rfl
@[simp] theorem State.setSlice_launches (s : State) (c sl : Nat) (x : Slice) : (s.setSlice c sl x).launches = s.launches := rfl
@[simp] theorem State.setSlice_graphs (s : State) (c sl : Nat) (x : Slice) : (s.setSlice c sl x).graphs = s.graphs := rfl
@[simp] theorem State.setSlice_runs (s : State) (c sl : Nat) (x : Slice) : (s.setSlice c sl x).runs = s.runs := rfl
@[simp] theorem State.setSlice_saved (s : State) (c sl : Nat) (x : Slice) : (s.setSlice c sl x).saved = s.saved := rfl
@[simp] theorem State.setSlice_badAreas (s : State) (c sl : Nat) (x : Slice) : (s.setSlice c sl x).badAreas = s.badAreas := rfl
@[simp] theorem State.setSlice_migrations (s : State) (c sl : Nat) (x : Slice) : (s.setSlice c sl x).migrations = s.migrations := rfl
@[simp] theorem State.setSlice_quiltSince (s : State) (c sl : Nat) (x : Slice) : (s.setSlice c sl x).quiltSince = s.quiltSince := rfl
@[simp] theorem State.setSlice_drainMax (s : State) (c sl : Nat) (x : Slice) : (s.setSlice c sl x).drainMax = s.drainMax := rfl
@[simp] theorem State.setSlice_routes (s : State) (c sl : Nat) (x : Slice) : (s.setSlice c sl x).routes = s.routes := rfl
@[simp] theorem State.setSlice_filter (s : State) (c sl : Nat) (x : Slice) : (s.setSlice c sl x).filter = s.filter := rfl
@[simp] theorem State.setSlice_refusedFrom (s : State) (c sl : Nat) (x : Slice) : (s.setSlice c sl x).refusedFrom = s.refusedFrom := rfl
@[simp] theorem State.setSlice_qps (s : State) (c sl : Nat) (x : Slice) : (s.setSlice c sl x).qps = s.qps := rfl
@[simp] theorem State.setSlice_cycleWrites (s : State) (c sl : Nat) (x : Slice) : (s.setSlice c sl x).cycleWrites = s.cycleWrites := rfl
@[simp] theorem State.setSlice_out (s : State) (c sl : Nat) (x : Slice) : (s.setSlice c sl x).out = s.out := rfl
@[simp] theorem State.setSlice_measure (s : State) (c sl : Nat) (x : Slice) : (s.setSlice c sl x).measure = s.measure := rfl
@[simp] theorem State.setSlice_measureLocked (s : State) (c sl : Nat) (x : Slice) : (s.setSlice c sl x).measureLocked = s.measureLocked := rfl
@[simp] theorem State.setSlice_starts (s : State) (c sl : Nat) (x : Slice) : (s.setSlice c sl x).starts = s.starts := rfl
@[simp] theorem State.setSlice_failedStarts (s : State) (c sl : Nat) (x : Slice) : (s.setSlice c sl x).failedStarts = s.failedStarts := rfl
@[simp] theorem State.setSlice_failures (s : State) (c sl : Nat) (x : Slice) : (s.setSlice c sl x).failures = s.failures := rfl
@[simp] theorem State.setSlice_bootFailed (s : State) (c sl : Nat) (x : Slice) : (s.setSlice c sl x).bootFailed = s.bootFailed := rfl
@[simp] theorem State.setSlice_recovery (s : State) (c sl : Nat) (x : Slice) : (s.setSlice c sl x).recovery = s.recovery := rfl
@[simp] theorem State.setSlice_held (s : State) (c sl : Nat) (x : Slice) : (s.setSlice c sl x).held = s.held := rfl
@[simp] theorem State.setSlice_group (s : State) (c sl : Nat) (x : Slice) : (s.setSlice c sl x).group = s.group := rfl
@[simp] theorem State.setSlice_floorState (s : State) (c sl : Nat) (x : Slice) : (s.setSlice c sl x).floorState = s.floorState := rfl
@[simp] theorem State.setSlice_cool (s : State) (c sl : Nat) (x : Slice) : (s.setSlice c sl x).cool = s.cool := rfl
@[simp] theorem State.setSlice_hemFailed (s : State) (c sl : Nat) (x : Slice) : (s.setSlice c sl x).hemFailed = s.hemFailed := rfl
@[simp] theorem State.setSlice_portsDown (s : State) (c sl : Nat) (x : Slice) : (s.setSlice c sl x).portsDown = s.portsDown := rfl
@[simp] theorem State.setSlice_brk (s : State) (c sl : Nat) (x : Slice) : (s.setSlice c sl x).brk = s.brk := rfl
@[simp] theorem State.setSlice_logs (s : State) (c sl : Nat) (x : Slice) : (s.setSlice c sl x).logs = s.logs := rfl
@[simp] theorem State.setSlice_routines (s : State) (c sl : Nat) (x : Slice) : (s.setSlice c sl x).routines = s.routines := rfl
@[simp] theorem State.setSlice_microcode (s : State) (c sl : Nat) (x : Slice) : (s.setSlice c sl x).microcode = s.microcode := rfl
@[simp] theorem State.setSlice_agenda (s : State) (c sl : Nat) (x : Slice) : (s.setSlice c sl x).agenda = s.agenda := rfl
@[simp] theorem State.setSlice_issueQ (s : State) (c sl : Nat) (x : Slice) : (s.setSlice c sl x).issueQ = s.issueQ := rfl
@[simp] theorem State.setSlice_cur (s : State) (c sl : Nat) (x : Slice) : (s.setSlice c sl x).cur = s.cur := rfl
@[simp] theorem State.setSlice_nextId (s : State) (c sl : Nat) (x : Slice) : (s.setSlice c sl x).nextId = s.nextId := rfl
@[simp] theorem State.setSlice_fresh (s : State) (c sl : Nat) (x : Slice) : (s.setSlice c sl x).fresh = s.fresh := rfl

/-! ### setQueue changes `queues` alone -/

@[simp] theorem State.setQueue_clk (s : State) (q : Nat) (x : Queue) : (s.setQueue q x).clk = s.clk := rfl
@[simp] theorem State.setQueue_devno (s : State) (q : Nat) (x : Queue) : (s.setQueue q x).devno = s.devno := rfl
@[simp] theorem State.setQueue_asidbase (s : State) (q : Nat) (x : Queue) : (s.setQueue q x).asidbase = s.asidbase := rfl
@[simp] theorem State.setQueue_tvecsel (s : State) (q : Nat) (x : Queue) : (s.setQueue q x).tvecsel = s.tvecsel := rfl
@[simp] theorem State.setQueue_tvec (s : State) (q : Nat) (x : Queue) : (s.setQueue q x).tvec = s.tvec := rfl
@[simp] theorem State.setQueue_placement (s : State) (q : Nat) (x : Queue) : (s.setQueue q x).placement = s.placement := rfl
@[simp] theorem State.setQueue_mem (s : State) (q : Nat) (x : Queue) : (s.setQueue q x).mem = s.mem := rfl
@[simp] theorem State.setQueue_poison (s : State) (q : Nat) (x : Queue) : (s.setQueue q x).poison = s.poison := rfl
@[simp] theorem State.setQueue_lines (s : State) (q : Nat) (x : Queue) : (s.setQueue q x).lines = s.lines := rfl
@[simp] theorem State.setQueue_reqs (s : State) (q : Nat) (x : Queue) : (s.setQueue q x).reqs = s.reqs := rfl
@[simp] theorem State.setQueue_releases (s : State) (q : Nat) (x : Queue) : (s.setQueue q x).releases = s.releases := rfl
@[simp] theorem State.setQueue_fences (s : State) (q : Nat) (x : Queue) : (s.setQueue q x).fences = s.fences := rfl
@[simp] theorem State.setQueue_quads (s : State) (q : Nat) (x : Queue) : (s.setQueue q x).quads = s.quads := rfl
@[simp] theorem State.setQueue_branches (s : State) (q : Nat) (x : Queue) : (s.setQueue q x).branches = s.branches := rfl
@[simp] theorem State.setQueue_walks (s : State) (q : Nat) (x : Queue) : (s.setQueue q x).walks = s.walks := rfl
@[simp] theorem State.setQueue_threads (s : State) (q : Nat) (x : Queue) : (s.setQueue q x).threads = s.threads := rfl
@[simp] theorem State.setQueue_ckpts (s : State) (q : Nat) (x : Queue) : (s.setQueue q x).ckpts = s.ckpts := rfl
@[simp] theorem State.setQueue_taken (s : State) (q : Nat) (x : Queue) : (s.setQueue q x).taken = s.taken := rfl
@[simp] theorem State.setQueue_blocks (s : State) (q : Nat) (x : Queue) : (s.setQueue q x).blocks = s.blocks := rfl
@[simp] theorem State.setQueue_slices (s : State) (q : Nat) (x : Queue) : (s.setQueue q x).slices = s.slices := rfl
@[simp] theorem State.setQueue_cores (s : State) (q : Nat) (x : Queue) : (s.setQueue q x).cores = s.cores := rfl
@[simp] theorem State.setQueue_sites (s : State) (q : Nat) (x : Queue) : (s.setQueue q x).sites = s.sites := rfl
@[simp] theorem State.setQueue_turns (s : State) (q : Nat) (x : Queue) : (s.setQueue q x).turns = s.turns := rfl
@[simp] theorem State.setQueue_launches (s : State) (q : Nat) (x : Queue) : (s.setQueue q x).launches = s.launches := rfl
@[simp] theorem State.setQueue_graphs (s : State) (q : Nat) (x : Queue) : (s.setQueue q x).graphs = s.graphs := rfl
@[simp] theorem State.setQueue_runs (s : State) (q : Nat) (x : Queue) : (s.setQueue q x).runs = s.runs := rfl
@[simp] theorem State.setQueue_saved (s : State) (q : Nat) (x : Queue) : (s.setQueue q x).saved = s.saved := rfl
@[simp] theorem State.setQueue_badAreas (s : State) (q : Nat) (x : Queue) : (s.setQueue q x).badAreas = s.badAreas := rfl
@[simp] theorem State.setQueue_migrations (s : State) (q : Nat) (x : Queue) : (s.setQueue q x).migrations = s.migrations := rfl
@[simp] theorem State.setQueue_quiltSince (s : State) (q : Nat) (x : Queue) : (s.setQueue q x).quiltSince = s.quiltSince := rfl
@[simp] theorem State.setQueue_drainMax (s : State) (q : Nat) (x : Queue) : (s.setQueue q x).drainMax = s.drainMax := rfl
@[simp] theorem State.setQueue_routes (s : State) (q : Nat) (x : Queue) : (s.setQueue q x).routes = s.routes := rfl
@[simp] theorem State.setQueue_filter (s : State) (q : Nat) (x : Queue) : (s.setQueue q x).filter = s.filter := rfl
@[simp] theorem State.setQueue_refusedFrom (s : State) (q : Nat) (x : Queue) : (s.setQueue q x).refusedFrom = s.refusedFrom := rfl
@[simp] theorem State.setQueue_qps (s : State) (q : Nat) (x : Queue) : (s.setQueue q x).qps = s.qps := rfl
@[simp] theorem State.setQueue_cycleWrites (s : State) (q : Nat) (x : Queue) : (s.setQueue q x).cycleWrites = s.cycleWrites := rfl
@[simp] theorem State.setQueue_out (s : State) (q : Nat) (x : Queue) : (s.setQueue q x).out = s.out := rfl
@[simp] theorem State.setQueue_measure (s : State) (q : Nat) (x : Queue) : (s.setQueue q x).measure = s.measure := rfl
@[simp] theorem State.setQueue_measureLocked (s : State) (q : Nat) (x : Queue) : (s.setQueue q x).measureLocked = s.measureLocked := rfl
@[simp] theorem State.setQueue_starts (s : State) (q : Nat) (x : Queue) : (s.setQueue q x).starts = s.starts := rfl
@[simp] theorem State.setQueue_failedStarts (s : State) (q : Nat) (x : Queue) : (s.setQueue q x).failedStarts = s.failedStarts := rfl
@[simp] theorem State.setQueue_failures (s : State) (q : Nat) (x : Queue) : (s.setQueue q x).failures = s.failures := rfl
@[simp] theorem State.setQueue_bootFailed (s : State) (q : Nat) (x : Queue) : (s.setQueue q x).bootFailed = s.bootFailed := rfl
@[simp] theorem State.setQueue_recovery (s : State) (q : Nat) (x : Queue) : (s.setQueue q x).recovery = s.recovery := rfl
@[simp] theorem State.setQueue_held (s : State) (q : Nat) (x : Queue) : (s.setQueue q x).held = s.held := rfl
@[simp] theorem State.setQueue_group (s : State) (q : Nat) (x : Queue) : (s.setQueue q x).group = s.group := rfl
@[simp] theorem State.setQueue_floorState (s : State) (q : Nat) (x : Queue) : (s.setQueue q x).floorState = s.floorState := rfl
@[simp] theorem State.setQueue_cool (s : State) (q : Nat) (x : Queue) : (s.setQueue q x).cool = s.cool := rfl
@[simp] theorem State.setQueue_hemFailed (s : State) (q : Nat) (x : Queue) : (s.setQueue q x).hemFailed = s.hemFailed := rfl
@[simp] theorem State.setQueue_portsDown (s : State) (q : Nat) (x : Queue) : (s.setQueue q x).portsDown = s.portsDown := rfl
@[simp] theorem State.setQueue_brk (s : State) (q : Nat) (x : Queue) : (s.setQueue q x).brk = s.brk := rfl
@[simp] theorem State.setQueue_logs (s : State) (q : Nat) (x : Queue) : (s.setQueue q x).logs = s.logs := rfl
@[simp] theorem State.setQueue_routines (s : State) (q : Nat) (x : Queue) : (s.setQueue q x).routines = s.routines := rfl
@[simp] theorem State.setQueue_microcode (s : State) (q : Nat) (x : Queue) : (s.setQueue q x).microcode = s.microcode := rfl
@[simp] theorem State.setQueue_agenda (s : State) (q : Nat) (x : Queue) : (s.setQueue q x).agenda = s.agenda := rfl
@[simp] theorem State.setQueue_issueQ (s : State) (q : Nat) (x : Queue) : (s.setQueue q x).issueQ = s.issueQ := rfl
@[simp] theorem State.setQueue_cur (s : State) (q : Nat) (x : Queue) : (s.setQueue q x).cur = s.cur := rfl
@[simp] theorem State.setQueue_nextId (s : State) (q : Nat) (x : Queue) : (s.setQueue q x).nextId = s.nextId := rfl
@[simp] theorem State.setQueue_fresh (s : State) (q : Nat) (x : Queue) : (s.setQueue q x).fresh = s.fresh := rfl

/-! ### setLaunch changes `launches` alone -/

@[simp] theorem State.setLaunch_clk (s : State) (i : Nat) (x : Launch) : (s.setLaunch i x).clk = s.clk := rfl
@[simp] theorem State.setLaunch_devno (s : State) (i : Nat) (x : Launch) : (s.setLaunch i x).devno = s.devno := rfl
@[simp] theorem State.setLaunch_asidbase (s : State) (i : Nat) (x : Launch) : (s.setLaunch i x).asidbase = s.asidbase := rfl
@[simp] theorem State.setLaunch_tvecsel (s : State) (i : Nat) (x : Launch) : (s.setLaunch i x).tvecsel = s.tvecsel := rfl
@[simp] theorem State.setLaunch_tvec (s : State) (i : Nat) (x : Launch) : (s.setLaunch i x).tvec = s.tvec := rfl
@[simp] theorem State.setLaunch_placement (s : State) (i : Nat) (x : Launch) : (s.setLaunch i x).placement = s.placement := rfl
@[simp] theorem State.setLaunch_mem (s : State) (i : Nat) (x : Launch) : (s.setLaunch i x).mem = s.mem := rfl
@[simp] theorem State.setLaunch_poison (s : State) (i : Nat) (x : Launch) : (s.setLaunch i x).poison = s.poison := rfl
@[simp] theorem State.setLaunch_lines (s : State) (i : Nat) (x : Launch) : (s.setLaunch i x).lines = s.lines := rfl
@[simp] theorem State.setLaunch_reqs (s : State) (i : Nat) (x : Launch) : (s.setLaunch i x).reqs = s.reqs := rfl
@[simp] theorem State.setLaunch_releases (s : State) (i : Nat) (x : Launch) : (s.setLaunch i x).releases = s.releases := rfl
@[simp] theorem State.setLaunch_fences (s : State) (i : Nat) (x : Launch) : (s.setLaunch i x).fences = s.fences := rfl
@[simp] theorem State.setLaunch_quads (s : State) (i : Nat) (x : Launch) : (s.setLaunch i x).quads = s.quads := rfl
@[simp] theorem State.setLaunch_branches (s : State) (i : Nat) (x : Launch) : (s.setLaunch i x).branches = s.branches := rfl
@[simp] theorem State.setLaunch_walks (s : State) (i : Nat) (x : Launch) : (s.setLaunch i x).walks = s.walks := rfl
@[simp] theorem State.setLaunch_threads (s : State) (i : Nat) (x : Launch) : (s.setLaunch i x).threads = s.threads := rfl
@[simp] theorem State.setLaunch_ckpts (s : State) (i : Nat) (x : Launch) : (s.setLaunch i x).ckpts = s.ckpts := rfl
@[simp] theorem State.setLaunch_taken (s : State) (i : Nat) (x : Launch) : (s.setLaunch i x).taken = s.taken := rfl
@[simp] theorem State.setLaunch_blocks (s : State) (i : Nat) (x : Launch) : (s.setLaunch i x).blocks = s.blocks := rfl
@[simp] theorem State.setLaunch_slices (s : State) (i : Nat) (x : Launch) : (s.setLaunch i x).slices = s.slices := rfl
@[simp] theorem State.setLaunch_cores (s : State) (i : Nat) (x : Launch) : (s.setLaunch i x).cores = s.cores := rfl
@[simp] theorem State.setLaunch_sites (s : State) (i : Nat) (x : Launch) : (s.setLaunch i x).sites = s.sites := rfl
@[simp] theorem State.setLaunch_queues (s : State) (i : Nat) (x : Launch) : (s.setLaunch i x).queues = s.queues := rfl
@[simp] theorem State.setLaunch_turns (s : State) (i : Nat) (x : Launch) : (s.setLaunch i x).turns = s.turns := rfl
@[simp] theorem State.setLaunch_graphs (s : State) (i : Nat) (x : Launch) : (s.setLaunch i x).graphs = s.graphs := rfl
@[simp] theorem State.setLaunch_runs (s : State) (i : Nat) (x : Launch) : (s.setLaunch i x).runs = s.runs := rfl
@[simp] theorem State.setLaunch_saved (s : State) (i : Nat) (x : Launch) : (s.setLaunch i x).saved = s.saved := rfl
@[simp] theorem State.setLaunch_badAreas (s : State) (i : Nat) (x : Launch) : (s.setLaunch i x).badAreas = s.badAreas := rfl
@[simp] theorem State.setLaunch_migrations (s : State) (i : Nat) (x : Launch) : (s.setLaunch i x).migrations = s.migrations := rfl
@[simp] theorem State.setLaunch_quiltSince (s : State) (i : Nat) (x : Launch) : (s.setLaunch i x).quiltSince = s.quiltSince := rfl
@[simp] theorem State.setLaunch_drainMax (s : State) (i : Nat) (x : Launch) : (s.setLaunch i x).drainMax = s.drainMax := rfl
@[simp] theorem State.setLaunch_routes (s : State) (i : Nat) (x : Launch) : (s.setLaunch i x).routes = s.routes := rfl
@[simp] theorem State.setLaunch_filter (s : State) (i : Nat) (x : Launch) : (s.setLaunch i x).filter = s.filter := rfl
@[simp] theorem State.setLaunch_refusedFrom (s : State) (i : Nat) (x : Launch) : (s.setLaunch i x).refusedFrom = s.refusedFrom := rfl
@[simp] theorem State.setLaunch_qps (s : State) (i : Nat) (x : Launch) : (s.setLaunch i x).qps = s.qps := rfl
@[simp] theorem State.setLaunch_cycleWrites (s : State) (i : Nat) (x : Launch) : (s.setLaunch i x).cycleWrites = s.cycleWrites := rfl
@[simp] theorem State.setLaunch_out (s : State) (i : Nat) (x : Launch) : (s.setLaunch i x).out = s.out := rfl
@[simp] theorem State.setLaunch_measure (s : State) (i : Nat) (x : Launch) : (s.setLaunch i x).measure = s.measure := rfl
@[simp] theorem State.setLaunch_measureLocked (s : State) (i : Nat) (x : Launch) : (s.setLaunch i x).measureLocked = s.measureLocked := rfl
@[simp] theorem State.setLaunch_starts (s : State) (i : Nat) (x : Launch) : (s.setLaunch i x).starts = s.starts := rfl
@[simp] theorem State.setLaunch_failedStarts (s : State) (i : Nat) (x : Launch) : (s.setLaunch i x).failedStarts = s.failedStarts := rfl
@[simp] theorem State.setLaunch_failures (s : State) (i : Nat) (x : Launch) : (s.setLaunch i x).failures = s.failures := rfl
@[simp] theorem State.setLaunch_bootFailed (s : State) (i : Nat) (x : Launch) : (s.setLaunch i x).bootFailed = s.bootFailed := rfl
@[simp] theorem State.setLaunch_recovery (s : State) (i : Nat) (x : Launch) : (s.setLaunch i x).recovery = s.recovery := rfl
@[simp] theorem State.setLaunch_held (s : State) (i : Nat) (x : Launch) : (s.setLaunch i x).held = s.held := rfl
@[simp] theorem State.setLaunch_group (s : State) (i : Nat) (x : Launch) : (s.setLaunch i x).group = s.group := rfl
@[simp] theorem State.setLaunch_floorState (s : State) (i : Nat) (x : Launch) : (s.setLaunch i x).floorState = s.floorState := rfl
@[simp] theorem State.setLaunch_cool (s : State) (i : Nat) (x : Launch) : (s.setLaunch i x).cool = s.cool := rfl
@[simp] theorem State.setLaunch_hemFailed (s : State) (i : Nat) (x : Launch) : (s.setLaunch i x).hemFailed = s.hemFailed := rfl
@[simp] theorem State.setLaunch_portsDown (s : State) (i : Nat) (x : Launch) : (s.setLaunch i x).portsDown = s.portsDown := rfl
@[simp] theorem State.setLaunch_brk (s : State) (i : Nat) (x : Launch) : (s.setLaunch i x).brk = s.brk := rfl
@[simp] theorem State.setLaunch_logs (s : State) (i : Nat) (x : Launch) : (s.setLaunch i x).logs = s.logs := rfl
@[simp] theorem State.setLaunch_routines (s : State) (i : Nat) (x : Launch) : (s.setLaunch i x).routines = s.routines := rfl
@[simp] theorem State.setLaunch_microcode (s : State) (i : Nat) (x : Launch) : (s.setLaunch i x).microcode = s.microcode := rfl
@[simp] theorem State.setLaunch_agenda (s : State) (i : Nat) (x : Launch) : (s.setLaunch i x).agenda = s.agenda := rfl
@[simp] theorem State.setLaunch_issueQ (s : State) (i : Nat) (x : Launch) : (s.setLaunch i x).issueQ = s.issueQ := rfl
@[simp] theorem State.setLaunch_cur (s : State) (i : Nat) (x : Launch) : (s.setLaunch i x).cur = s.cur := rfl
@[simp] theorem State.setLaunch_nextId (s : State) (i : Nat) (x : Launch) : (s.setLaunch i x).nextId = s.nextId := rfl
@[simp] theorem State.setLaunch_fresh (s : State) (i : Nat) (x : Launch) : (s.setLaunch i x).fresh = s.fresh := rfl

/-! ### emit changes `out` alone -/

@[simp] theorem State.emit_clk (s : State) (m : Msg) : (s.emit m).clk = s.clk := rfl
@[simp] theorem State.emit_devno (s : State) (m : Msg) : (s.emit m).devno = s.devno := rfl
@[simp] theorem State.emit_asidbase (s : State) (m : Msg) : (s.emit m).asidbase = s.asidbase := rfl
@[simp] theorem State.emit_tvecsel (s : State) (m : Msg) : (s.emit m).tvecsel = s.tvecsel := rfl
@[simp] theorem State.emit_tvec (s : State) (m : Msg) : (s.emit m).tvec = s.tvec := rfl
@[simp] theorem State.emit_placement (s : State) (m : Msg) : (s.emit m).placement = s.placement := rfl
@[simp] theorem State.emit_mem (s : State) (m : Msg) : (s.emit m).mem = s.mem := rfl
@[simp] theorem State.emit_poison (s : State) (m : Msg) : (s.emit m).poison = s.poison := rfl
@[simp] theorem State.emit_lines (s : State) (m : Msg) : (s.emit m).lines = s.lines := rfl
@[simp] theorem State.emit_reqs (s : State) (m : Msg) : (s.emit m).reqs = s.reqs := rfl
@[simp] theorem State.emit_releases (s : State) (m : Msg) : (s.emit m).releases = s.releases := rfl
@[simp] theorem State.emit_fences (s : State) (m : Msg) : (s.emit m).fences = s.fences := rfl
@[simp] theorem State.emit_quads (s : State) (m : Msg) : (s.emit m).quads = s.quads := rfl
@[simp] theorem State.emit_branches (s : State) (m : Msg) : (s.emit m).branches = s.branches := rfl
@[simp] theorem State.emit_walks (s : State) (m : Msg) : (s.emit m).walks = s.walks := rfl
@[simp] theorem State.emit_threads (s : State) (m : Msg) : (s.emit m).threads = s.threads := rfl
@[simp] theorem State.emit_ckpts (s : State) (m : Msg) : (s.emit m).ckpts = s.ckpts := rfl
@[simp] theorem State.emit_taken (s : State) (m : Msg) : (s.emit m).taken = s.taken := rfl
@[simp] theorem State.emit_blocks (s : State) (m : Msg) : (s.emit m).blocks = s.blocks := rfl
@[simp] theorem State.emit_slices (s : State) (m : Msg) : (s.emit m).slices = s.slices := rfl
@[simp] theorem State.emit_cores (s : State) (m : Msg) : (s.emit m).cores = s.cores := rfl
@[simp] theorem State.emit_sites (s : State) (m : Msg) : (s.emit m).sites = s.sites := rfl
@[simp] theorem State.emit_queues (s : State) (m : Msg) : (s.emit m).queues = s.queues := rfl
@[simp] theorem State.emit_turns (s : State) (m : Msg) : (s.emit m).turns = s.turns := rfl
@[simp] theorem State.emit_launches (s : State) (m : Msg) : (s.emit m).launches = s.launches := rfl
@[simp] theorem State.emit_graphs (s : State) (m : Msg) : (s.emit m).graphs = s.graphs := rfl
@[simp] theorem State.emit_runs (s : State) (m : Msg) : (s.emit m).runs = s.runs := rfl
@[simp] theorem State.emit_saved (s : State) (m : Msg) : (s.emit m).saved = s.saved := rfl
@[simp] theorem State.emit_badAreas (s : State) (m : Msg) : (s.emit m).badAreas = s.badAreas := rfl
@[simp] theorem State.emit_migrations (s : State) (m : Msg) : (s.emit m).migrations = s.migrations := rfl
@[simp] theorem State.emit_quiltSince (s : State) (m : Msg) : (s.emit m).quiltSince = s.quiltSince := rfl
@[simp] theorem State.emit_drainMax (s : State) (m : Msg) : (s.emit m).drainMax = s.drainMax := rfl
@[simp] theorem State.emit_routes (s : State) (m : Msg) : (s.emit m).routes = s.routes := rfl
@[simp] theorem State.emit_filter (s : State) (m : Msg) : (s.emit m).filter = s.filter := rfl
@[simp] theorem State.emit_refusedFrom (s : State) (m : Msg) : (s.emit m).refusedFrom = s.refusedFrom := rfl
@[simp] theorem State.emit_qps (s : State) (m : Msg) : (s.emit m).qps = s.qps := rfl
@[simp] theorem State.emit_cycleWrites (s : State) (m : Msg) : (s.emit m).cycleWrites = s.cycleWrites := rfl
@[simp] theorem State.emit_measure (s : State) (m : Msg) : (s.emit m).measure = s.measure := rfl
@[simp] theorem State.emit_measureLocked (s : State) (m : Msg) : (s.emit m).measureLocked = s.measureLocked := rfl
@[simp] theorem State.emit_starts (s : State) (m : Msg) : (s.emit m).starts = s.starts := rfl
@[simp] theorem State.emit_failedStarts (s : State) (m : Msg) : (s.emit m).failedStarts = s.failedStarts := rfl
@[simp] theorem State.emit_failures (s : State) (m : Msg) : (s.emit m).failures = s.failures := rfl
@[simp] theorem State.emit_bootFailed (s : State) (m : Msg) : (s.emit m).bootFailed = s.bootFailed := rfl
@[simp] theorem State.emit_recovery (s : State) (m : Msg) : (s.emit m).recovery = s.recovery := rfl
@[simp] theorem State.emit_held (s : State) (m : Msg) : (s.emit m).held = s.held := rfl
@[simp] theorem State.emit_group (s : State) (m : Msg) : (s.emit m).group = s.group := rfl
@[simp] theorem State.emit_floorState (s : State) (m : Msg) : (s.emit m).floorState = s.floorState := rfl
@[simp] theorem State.emit_cool (s : State) (m : Msg) : (s.emit m).cool = s.cool := rfl
@[simp] theorem State.emit_hemFailed (s : State) (m : Msg) : (s.emit m).hemFailed = s.hemFailed := rfl
@[simp] theorem State.emit_portsDown (s : State) (m : Msg) : (s.emit m).portsDown = s.portsDown := rfl
@[simp] theorem State.emit_brk (s : State) (m : Msg) : (s.emit m).brk = s.brk := rfl
@[simp] theorem State.emit_logs (s : State) (m : Msg) : (s.emit m).logs = s.logs := rfl
@[simp] theorem State.emit_routines (s : State) (m : Msg) : (s.emit m).routines = s.routines := rfl
@[simp] theorem State.emit_microcode (s : State) (m : Msg) : (s.emit m).microcode = s.microcode := rfl
@[simp] theorem State.emit_agenda (s : State) (m : Msg) : (s.emit m).agenda = s.agenda := rfl
@[simp] theorem State.emit_issueQ (s : State) (m : Msg) : (s.emit m).issueQ = s.issueQ := rfl
@[simp] theorem State.emit_cur (s : State) (m : Msg) : (s.emit m).cur = s.cur := rfl
@[simp] theorem State.emit_nextId (s : State) (m : Msg) : (s.emit m).nextId = s.nextId := rfl
@[simp] theorem State.emit_fresh (s : State) (m : Msg) : (s.emit m).fresh = s.fresh := rfl

/-! ### log changes `logs` alone -/

@[simp] theorem State.log_clk (s : State) (k : Nat) : (s.log k).clk = s.clk := rfl
@[simp] theorem State.log_devno (s : State) (k : Nat) : (s.log k).devno = s.devno := rfl
@[simp] theorem State.log_asidbase (s : State) (k : Nat) : (s.log k).asidbase = s.asidbase := rfl
@[simp] theorem State.log_tvecsel (s : State) (k : Nat) : (s.log k).tvecsel = s.tvecsel := rfl
@[simp] theorem State.log_tvec (s : State) (k : Nat) : (s.log k).tvec = s.tvec := rfl
@[simp] theorem State.log_placement (s : State) (k : Nat) : (s.log k).placement = s.placement := rfl
@[simp] theorem State.log_mem (s : State) (k : Nat) : (s.log k).mem = s.mem := rfl
@[simp] theorem State.log_poison (s : State) (k : Nat) : (s.log k).poison = s.poison := rfl
@[simp] theorem State.log_lines (s : State) (k : Nat) : (s.log k).lines = s.lines := rfl
@[simp] theorem State.log_reqs (s : State) (k : Nat) : (s.log k).reqs = s.reqs := rfl
@[simp] theorem State.log_releases (s : State) (k : Nat) : (s.log k).releases = s.releases := rfl
@[simp] theorem State.log_fences (s : State) (k : Nat) : (s.log k).fences = s.fences := rfl
@[simp] theorem State.log_quads (s : State) (k : Nat) : (s.log k).quads = s.quads := rfl
@[simp] theorem State.log_branches (s : State) (k : Nat) : (s.log k).branches = s.branches := rfl
@[simp] theorem State.log_walks (s : State) (k : Nat) : (s.log k).walks = s.walks := rfl
@[simp] theorem State.log_threads (s : State) (k : Nat) : (s.log k).threads = s.threads := rfl
@[simp] theorem State.log_ckpts (s : State) (k : Nat) : (s.log k).ckpts = s.ckpts := rfl
@[simp] theorem State.log_taken (s : State) (k : Nat) : (s.log k).taken = s.taken := rfl
@[simp] theorem State.log_blocks (s : State) (k : Nat) : (s.log k).blocks = s.blocks := rfl
@[simp] theorem State.log_slices (s : State) (k : Nat) : (s.log k).slices = s.slices := rfl
@[simp] theorem State.log_cores (s : State) (k : Nat) : (s.log k).cores = s.cores := rfl
@[simp] theorem State.log_sites (s : State) (k : Nat) : (s.log k).sites = s.sites := rfl
@[simp] theorem State.log_queues (s : State) (k : Nat) : (s.log k).queues = s.queues := rfl
@[simp] theorem State.log_turns (s : State) (k : Nat) : (s.log k).turns = s.turns := rfl
@[simp] theorem State.log_launches (s : State) (k : Nat) : (s.log k).launches = s.launches := rfl
@[simp] theorem State.log_graphs (s : State) (k : Nat) : (s.log k).graphs = s.graphs := rfl
@[simp] theorem State.log_runs (s : State) (k : Nat) : (s.log k).runs = s.runs := rfl
@[simp] theorem State.log_saved (s : State) (k : Nat) : (s.log k).saved = s.saved := rfl
@[simp] theorem State.log_badAreas (s : State) (k : Nat) : (s.log k).badAreas = s.badAreas := rfl
@[simp] theorem State.log_migrations (s : State) (k : Nat) : (s.log k).migrations = s.migrations := rfl
@[simp] theorem State.log_quiltSince (s : State) (k : Nat) : (s.log k).quiltSince = s.quiltSince := rfl
@[simp] theorem State.log_drainMax (s : State) (k : Nat) : (s.log k).drainMax = s.drainMax := rfl
@[simp] theorem State.log_routes (s : State) (k : Nat) : (s.log k).routes = s.routes := rfl
@[simp] theorem State.log_filter (s : State) (k : Nat) : (s.log k).filter = s.filter := rfl
@[simp] theorem State.log_refusedFrom (s : State) (k : Nat) : (s.log k).refusedFrom = s.refusedFrom := rfl
@[simp] theorem State.log_qps (s : State) (k : Nat) : (s.log k).qps = s.qps := rfl
@[simp] theorem State.log_cycleWrites (s : State) (k : Nat) : (s.log k).cycleWrites = s.cycleWrites := rfl
@[simp] theorem State.log_out (s : State) (k : Nat) : (s.log k).out = s.out := rfl
@[simp] theorem State.log_measure (s : State) (k : Nat) : (s.log k).measure = s.measure := rfl
@[simp] theorem State.log_measureLocked (s : State) (k : Nat) : (s.log k).measureLocked = s.measureLocked := rfl
@[simp] theorem State.log_starts (s : State) (k : Nat) : (s.log k).starts = s.starts := rfl
@[simp] theorem State.log_failedStarts (s : State) (k : Nat) : (s.log k).failedStarts = s.failedStarts := rfl
@[simp] theorem State.log_failures (s : State) (k : Nat) : (s.log k).failures = s.failures := rfl
@[simp] theorem State.log_bootFailed (s : State) (k : Nat) : (s.log k).bootFailed = s.bootFailed := rfl
@[simp] theorem State.log_recovery (s : State) (k : Nat) : (s.log k).recovery = s.recovery := rfl
@[simp] theorem State.log_held (s : State) (k : Nat) : (s.log k).held = s.held := rfl
@[simp] theorem State.log_group (s : State) (k : Nat) : (s.log k).group = s.group := rfl
@[simp] theorem State.log_floorState (s : State) (k : Nat) : (s.log k).floorState = s.floorState := rfl
@[simp] theorem State.log_cool (s : State) (k : Nat) : (s.log k).cool = s.cool := rfl
@[simp] theorem State.log_hemFailed (s : State) (k : Nat) : (s.log k).hemFailed = s.hemFailed := rfl
@[simp] theorem State.log_portsDown (s : State) (k : Nat) : (s.log k).portsDown = s.portsDown := rfl
@[simp] theorem State.log_brk (s : State) (k : Nat) : (s.log k).brk = s.brk := rfl
@[simp] theorem State.log_routines (s : State) (k : Nat) : (s.log k).routines = s.routines := rfl
@[simp] theorem State.log_microcode (s : State) (k : Nat) : (s.log k).microcode = s.microcode := rfl
@[simp] theorem State.log_agenda (s : State) (k : Nat) : (s.log k).agenda = s.agenda := rfl
@[simp] theorem State.log_issueQ (s : State) (k : Nat) : (s.log k).issueQ = s.issueQ := rfl
@[simp] theorem State.log_cur (s : State) (k : Nat) : (s.log k).cur = s.cur := rfl
@[simp] theorem State.log_nextId (s : State) (k : Nat) : (s.log k).nextId = s.nextId := rfl
@[simp] theorem State.log_fresh (s : State) (k : Nat) : (s.log k).fresh = s.fresh := rfl

/-! ### bumpId changes `nextId` alone -/

@[simp] theorem State.bumpId_clk (s : State) : (s.bumpId).clk = s.clk := rfl
@[simp] theorem State.bumpId_devno (s : State) : (s.bumpId).devno = s.devno := rfl
@[simp] theorem State.bumpId_asidbase (s : State) : (s.bumpId).asidbase = s.asidbase := rfl
@[simp] theorem State.bumpId_tvecsel (s : State) : (s.bumpId).tvecsel = s.tvecsel := rfl
@[simp] theorem State.bumpId_tvec (s : State) : (s.bumpId).tvec = s.tvec := rfl
@[simp] theorem State.bumpId_placement (s : State) : (s.bumpId).placement = s.placement := rfl
@[simp] theorem State.bumpId_mem (s : State) : (s.bumpId).mem = s.mem := rfl
@[simp] theorem State.bumpId_poison (s : State) : (s.bumpId).poison = s.poison := rfl
@[simp] theorem State.bumpId_lines (s : State) : (s.bumpId).lines = s.lines := rfl
@[simp] theorem State.bumpId_reqs (s : State) : (s.bumpId).reqs = s.reqs := rfl
@[simp] theorem State.bumpId_releases (s : State) : (s.bumpId).releases = s.releases := rfl
@[simp] theorem State.bumpId_fences (s : State) : (s.bumpId).fences = s.fences := rfl
@[simp] theorem State.bumpId_quads (s : State) : (s.bumpId).quads = s.quads := rfl
@[simp] theorem State.bumpId_branches (s : State) : (s.bumpId).branches = s.branches := rfl
@[simp] theorem State.bumpId_walks (s : State) : (s.bumpId).walks = s.walks := rfl
@[simp] theorem State.bumpId_threads (s : State) : (s.bumpId).threads = s.threads := rfl
@[simp] theorem State.bumpId_ckpts (s : State) : (s.bumpId).ckpts = s.ckpts := rfl
@[simp] theorem State.bumpId_taken (s : State) : (s.bumpId).taken = s.taken := rfl
@[simp] theorem State.bumpId_blocks (s : State) : (s.bumpId).blocks = s.blocks := rfl
@[simp] theorem State.bumpId_slices (s : State) : (s.bumpId).slices = s.slices := rfl
@[simp] theorem State.bumpId_cores (s : State) : (s.bumpId).cores = s.cores := rfl
@[simp] theorem State.bumpId_sites (s : State) : (s.bumpId).sites = s.sites := rfl
@[simp] theorem State.bumpId_queues (s : State) : (s.bumpId).queues = s.queues := rfl
@[simp] theorem State.bumpId_turns (s : State) : (s.bumpId).turns = s.turns := rfl
@[simp] theorem State.bumpId_launches (s : State) : (s.bumpId).launches = s.launches := rfl
@[simp] theorem State.bumpId_graphs (s : State) : (s.bumpId).graphs = s.graphs := rfl
@[simp] theorem State.bumpId_runs (s : State) : (s.bumpId).runs = s.runs := rfl
@[simp] theorem State.bumpId_saved (s : State) : (s.bumpId).saved = s.saved := rfl
@[simp] theorem State.bumpId_badAreas (s : State) : (s.bumpId).badAreas = s.badAreas := rfl
@[simp] theorem State.bumpId_migrations (s : State) : (s.bumpId).migrations = s.migrations := rfl
@[simp] theorem State.bumpId_quiltSince (s : State) : (s.bumpId).quiltSince = s.quiltSince := rfl
@[simp] theorem State.bumpId_drainMax (s : State) : (s.bumpId).drainMax = s.drainMax := rfl
@[simp] theorem State.bumpId_routes (s : State) : (s.bumpId).routes = s.routes := rfl
@[simp] theorem State.bumpId_filter (s : State) : (s.bumpId).filter = s.filter := rfl
@[simp] theorem State.bumpId_refusedFrom (s : State) : (s.bumpId).refusedFrom = s.refusedFrom := rfl
@[simp] theorem State.bumpId_qps (s : State) : (s.bumpId).qps = s.qps := rfl
@[simp] theorem State.bumpId_cycleWrites (s : State) : (s.bumpId).cycleWrites = s.cycleWrites := rfl
@[simp] theorem State.bumpId_out (s : State) : (s.bumpId).out = s.out := rfl
@[simp] theorem State.bumpId_measure (s : State) : (s.bumpId).measure = s.measure := rfl
@[simp] theorem State.bumpId_measureLocked (s : State) : (s.bumpId).measureLocked = s.measureLocked := rfl
@[simp] theorem State.bumpId_starts (s : State) : (s.bumpId).starts = s.starts := rfl
@[simp] theorem State.bumpId_failedStarts (s : State) : (s.bumpId).failedStarts = s.failedStarts := rfl
@[simp] theorem State.bumpId_failures (s : State) : (s.bumpId).failures = s.failures := rfl
@[simp] theorem State.bumpId_bootFailed (s : State) : (s.bumpId).bootFailed = s.bootFailed := rfl
@[simp] theorem State.bumpId_recovery (s : State) : (s.bumpId).recovery = s.recovery := rfl
@[simp] theorem State.bumpId_held (s : State) : (s.bumpId).held = s.held := rfl
@[simp] theorem State.bumpId_group (s : State) : (s.bumpId).group = s.group := rfl
@[simp] theorem State.bumpId_floorState (s : State) : (s.bumpId).floorState = s.floorState := rfl
@[simp] theorem State.bumpId_cool (s : State) : (s.bumpId).cool = s.cool := rfl
@[simp] theorem State.bumpId_hemFailed (s : State) : (s.bumpId).hemFailed = s.hemFailed := rfl
@[simp] theorem State.bumpId_portsDown (s : State) : (s.bumpId).portsDown = s.portsDown := rfl
@[simp] theorem State.bumpId_brk (s : State) : (s.bumpId).brk = s.brk := rfl
@[simp] theorem State.bumpId_logs (s : State) : (s.bumpId).logs = s.logs := rfl
@[simp] theorem State.bumpId_routines (s : State) : (s.bumpId).routines = s.routines := rfl
@[simp] theorem State.bumpId_microcode (s : State) : (s.bumpId).microcode = s.microcode := rfl
@[simp] theorem State.bumpId_agenda (s : State) : (s.bumpId).agenda = s.agenda := rfl
@[simp] theorem State.bumpId_issueQ (s : State) : (s.bumpId).issueQ = s.issueQ := rfl
@[simp] theorem State.bumpId_cur (s : State) : (s.bumpId).cur = s.cur := rfl
@[simp] theorem State.bumpId_fresh (s : State) : (s.bumpId).fresh = s.fresh := rfl

/-! ### bumpFresh changes `fresh` alone -/

@[simp] theorem State.bumpFresh_clk (s : State) : (s.bumpFresh).clk = s.clk := rfl
@[simp] theorem State.bumpFresh_devno (s : State) : (s.bumpFresh).devno = s.devno := rfl
@[simp] theorem State.bumpFresh_asidbase (s : State) : (s.bumpFresh).asidbase = s.asidbase := rfl
@[simp] theorem State.bumpFresh_tvecsel (s : State) : (s.bumpFresh).tvecsel = s.tvecsel := rfl
@[simp] theorem State.bumpFresh_tvec (s : State) : (s.bumpFresh).tvec = s.tvec := rfl
@[simp] theorem State.bumpFresh_placement (s : State) : (s.bumpFresh).placement = s.placement := rfl
@[simp] theorem State.bumpFresh_mem (s : State) : (s.bumpFresh).mem = s.mem := rfl
@[simp] theorem State.bumpFresh_poison (s : State) : (s.bumpFresh).poison = s.poison := rfl
@[simp] theorem State.bumpFresh_lines (s : State) : (s.bumpFresh).lines = s.lines := rfl
@[simp] theorem State.bumpFresh_reqs (s : State) : (s.bumpFresh).reqs = s.reqs := rfl
@[simp] theorem State.bumpFresh_releases (s : State) : (s.bumpFresh).releases = s.releases := rfl
@[simp] theorem State.bumpFresh_fences (s : State) : (s.bumpFresh).fences = s.fences := rfl
@[simp] theorem State.bumpFresh_quads (s : State) : (s.bumpFresh).quads = s.quads := rfl
@[simp] theorem State.bumpFresh_branches (s : State) : (s.bumpFresh).branches = s.branches := rfl
@[simp] theorem State.bumpFresh_walks (s : State) : (s.bumpFresh).walks = s.walks := rfl
@[simp] theorem State.bumpFresh_threads (s : State) : (s.bumpFresh).threads = s.threads := rfl
@[simp] theorem State.bumpFresh_ckpts (s : State) : (s.bumpFresh).ckpts = s.ckpts := rfl
@[simp] theorem State.bumpFresh_taken (s : State) : (s.bumpFresh).taken = s.taken := rfl
@[simp] theorem State.bumpFresh_blocks (s : State) : (s.bumpFresh).blocks = s.blocks := rfl
@[simp] theorem State.bumpFresh_slices (s : State) : (s.bumpFresh).slices = s.slices := rfl
@[simp] theorem State.bumpFresh_cores (s : State) : (s.bumpFresh).cores = s.cores := rfl
@[simp] theorem State.bumpFresh_sites (s : State) : (s.bumpFresh).sites = s.sites := rfl
@[simp] theorem State.bumpFresh_queues (s : State) : (s.bumpFresh).queues = s.queues := rfl
@[simp] theorem State.bumpFresh_turns (s : State) : (s.bumpFresh).turns = s.turns := rfl
@[simp] theorem State.bumpFresh_launches (s : State) : (s.bumpFresh).launches = s.launches := rfl
@[simp] theorem State.bumpFresh_graphs (s : State) : (s.bumpFresh).graphs = s.graphs := rfl
@[simp] theorem State.bumpFresh_runs (s : State) : (s.bumpFresh).runs = s.runs := rfl
@[simp] theorem State.bumpFresh_saved (s : State) : (s.bumpFresh).saved = s.saved := rfl
@[simp] theorem State.bumpFresh_badAreas (s : State) : (s.bumpFresh).badAreas = s.badAreas := rfl
@[simp] theorem State.bumpFresh_migrations (s : State) : (s.bumpFresh).migrations = s.migrations := rfl
@[simp] theorem State.bumpFresh_quiltSince (s : State) : (s.bumpFresh).quiltSince = s.quiltSince := rfl
@[simp] theorem State.bumpFresh_drainMax (s : State) : (s.bumpFresh).drainMax = s.drainMax := rfl
@[simp] theorem State.bumpFresh_routes (s : State) : (s.bumpFresh).routes = s.routes := rfl
@[simp] theorem State.bumpFresh_filter (s : State) : (s.bumpFresh).filter = s.filter := rfl
@[simp] theorem State.bumpFresh_refusedFrom (s : State) : (s.bumpFresh).refusedFrom = s.refusedFrom := rfl
@[simp] theorem State.bumpFresh_qps (s : State) : (s.bumpFresh).qps = s.qps := rfl
@[simp] theorem State.bumpFresh_cycleWrites (s : State) : (s.bumpFresh).cycleWrites = s.cycleWrites := rfl
@[simp] theorem State.bumpFresh_out (s : State) : (s.bumpFresh).out = s.out := rfl
@[simp] theorem State.bumpFresh_measure (s : State) : (s.bumpFresh).measure = s.measure := rfl
@[simp] theorem State.bumpFresh_measureLocked (s : State) : (s.bumpFresh).measureLocked = s.measureLocked := rfl
@[simp] theorem State.bumpFresh_starts (s : State) : (s.bumpFresh).starts = s.starts := rfl
@[simp] theorem State.bumpFresh_failedStarts (s : State) : (s.bumpFresh).failedStarts = s.failedStarts := rfl
@[simp] theorem State.bumpFresh_failures (s : State) : (s.bumpFresh).failures = s.failures := rfl
@[simp] theorem State.bumpFresh_bootFailed (s : State) : (s.bumpFresh).bootFailed = s.bootFailed := rfl
@[simp] theorem State.bumpFresh_recovery (s : State) : (s.bumpFresh).recovery = s.recovery := rfl
@[simp] theorem State.bumpFresh_held (s : State) : (s.bumpFresh).held = s.held := rfl
@[simp] theorem State.bumpFresh_group (s : State) : (s.bumpFresh).group = s.group := rfl
@[simp] theorem State.bumpFresh_floorState (s : State) : (s.bumpFresh).floorState = s.floorState := rfl
@[simp] theorem State.bumpFresh_cool (s : State) : (s.bumpFresh).cool = s.cool := rfl
@[simp] theorem State.bumpFresh_hemFailed (s : State) : (s.bumpFresh).hemFailed = s.hemFailed := rfl
@[simp] theorem State.bumpFresh_portsDown (s : State) : (s.bumpFresh).portsDown = s.portsDown := rfl
@[simp] theorem State.bumpFresh_brk (s : State) : (s.bumpFresh).brk = s.brk := rfl
@[simp] theorem State.bumpFresh_logs (s : State) : (s.bumpFresh).logs = s.logs := rfl
@[simp] theorem State.bumpFresh_routines (s : State) : (s.bumpFresh).routines = s.routines := rfl
@[simp] theorem State.bumpFresh_microcode (s : State) : (s.bumpFresh).microcode = s.microcode := rfl
@[simp] theorem State.bumpFresh_agenda (s : State) : (s.bumpFresh).agenda = s.agenda := rfl
@[simp] theorem State.bumpFresh_issueQ (s : State) : (s.bumpFresh).issueQ = s.issueQ := rfl
@[simp] theorem State.bumpFresh_cur (s : State) : (s.bumpFresh).cur = s.cur := rfl
@[simp] theorem State.bumpFresh_nextId (s : State) : (s.bumpFresh).nextId = s.nextId := rfl

/-! ### setDramByte changes `mem` alone -/

@[simp] theorem State.setDramByte_clk (s : State) (pa : Nat) (x : Byte) : (s.setDramByte pa x).clk = s.clk := rfl
@[simp] theorem State.setDramByte_devno (s : State) (pa : Nat) (x : Byte) : (s.setDramByte pa x).devno = s.devno := rfl
@[simp] theorem State.setDramByte_asidbase (s : State) (pa : Nat) (x : Byte) : (s.setDramByte pa x).asidbase = s.asidbase := rfl
@[simp] theorem State.setDramByte_tvecsel (s : State) (pa : Nat) (x : Byte) : (s.setDramByte pa x).tvecsel = s.tvecsel := rfl
@[simp] theorem State.setDramByte_tvec (s : State) (pa : Nat) (x : Byte) : (s.setDramByte pa x).tvec = s.tvec := rfl
@[simp] theorem State.setDramByte_placement (s : State) (pa : Nat) (x : Byte) : (s.setDramByte pa x).placement = s.placement := rfl
@[simp] theorem State.setDramByte_poison (s : State) (pa : Nat) (x : Byte) : (s.setDramByte pa x).poison = s.poison := rfl
@[simp] theorem State.setDramByte_lines (s : State) (pa : Nat) (x : Byte) : (s.setDramByte pa x).lines = s.lines := rfl
@[simp] theorem State.setDramByte_reqs (s : State) (pa : Nat) (x : Byte) : (s.setDramByte pa x).reqs = s.reqs := rfl
@[simp] theorem State.setDramByte_releases (s : State) (pa : Nat) (x : Byte) : (s.setDramByte pa x).releases = s.releases := rfl
@[simp] theorem State.setDramByte_fences (s : State) (pa : Nat) (x : Byte) : (s.setDramByte pa x).fences = s.fences := rfl
@[simp] theorem State.setDramByte_quads (s : State) (pa : Nat) (x : Byte) : (s.setDramByte pa x).quads = s.quads := rfl
@[simp] theorem State.setDramByte_branches (s : State) (pa : Nat) (x : Byte) : (s.setDramByte pa x).branches = s.branches := rfl
@[simp] theorem State.setDramByte_walks (s : State) (pa : Nat) (x : Byte) : (s.setDramByte pa x).walks = s.walks := rfl
@[simp] theorem State.setDramByte_threads (s : State) (pa : Nat) (x : Byte) : (s.setDramByte pa x).threads = s.threads := rfl
@[simp] theorem State.setDramByte_ckpts (s : State) (pa : Nat) (x : Byte) : (s.setDramByte pa x).ckpts = s.ckpts := rfl
@[simp] theorem State.setDramByte_taken (s : State) (pa : Nat) (x : Byte) : (s.setDramByte pa x).taken = s.taken := rfl
@[simp] theorem State.setDramByte_blocks (s : State) (pa : Nat) (x : Byte) : (s.setDramByte pa x).blocks = s.blocks := rfl
@[simp] theorem State.setDramByte_slices (s : State) (pa : Nat) (x : Byte) : (s.setDramByte pa x).slices = s.slices := rfl
@[simp] theorem State.setDramByte_cores (s : State) (pa : Nat) (x : Byte) : (s.setDramByte pa x).cores = s.cores := rfl
@[simp] theorem State.setDramByte_sites (s : State) (pa : Nat) (x : Byte) : (s.setDramByte pa x).sites = s.sites := rfl
@[simp] theorem State.setDramByte_queues (s : State) (pa : Nat) (x : Byte) : (s.setDramByte pa x).queues = s.queues := rfl
@[simp] theorem State.setDramByte_turns (s : State) (pa : Nat) (x : Byte) : (s.setDramByte pa x).turns = s.turns := rfl
@[simp] theorem State.setDramByte_launches (s : State) (pa : Nat) (x : Byte) : (s.setDramByte pa x).launches = s.launches := rfl
@[simp] theorem State.setDramByte_graphs (s : State) (pa : Nat) (x : Byte) : (s.setDramByte pa x).graphs = s.graphs := rfl
@[simp] theorem State.setDramByte_runs (s : State) (pa : Nat) (x : Byte) : (s.setDramByte pa x).runs = s.runs := rfl
@[simp] theorem State.setDramByte_saved (s : State) (pa : Nat) (x : Byte) : (s.setDramByte pa x).saved = s.saved := rfl
@[simp] theorem State.setDramByte_badAreas (s : State) (pa : Nat) (x : Byte) : (s.setDramByte pa x).badAreas = s.badAreas := rfl
@[simp] theorem State.setDramByte_migrations (s : State) (pa : Nat) (x : Byte) : (s.setDramByte pa x).migrations = s.migrations := rfl
@[simp] theorem State.setDramByte_quiltSince (s : State) (pa : Nat) (x : Byte) : (s.setDramByte pa x).quiltSince = s.quiltSince := rfl
@[simp] theorem State.setDramByte_drainMax (s : State) (pa : Nat) (x : Byte) : (s.setDramByte pa x).drainMax = s.drainMax := rfl
@[simp] theorem State.setDramByte_routes (s : State) (pa : Nat) (x : Byte) : (s.setDramByte pa x).routes = s.routes := rfl
@[simp] theorem State.setDramByte_filter (s : State) (pa : Nat) (x : Byte) : (s.setDramByte pa x).filter = s.filter := rfl
@[simp] theorem State.setDramByte_refusedFrom (s : State) (pa : Nat) (x : Byte) : (s.setDramByte pa x).refusedFrom = s.refusedFrom := rfl
@[simp] theorem State.setDramByte_qps (s : State) (pa : Nat) (x : Byte) : (s.setDramByte pa x).qps = s.qps := rfl
@[simp] theorem State.setDramByte_cycleWrites (s : State) (pa : Nat) (x : Byte) : (s.setDramByte pa x).cycleWrites = s.cycleWrites := rfl
@[simp] theorem State.setDramByte_out (s : State) (pa : Nat) (x : Byte) : (s.setDramByte pa x).out = s.out := rfl
@[simp] theorem State.setDramByte_measure (s : State) (pa : Nat) (x : Byte) : (s.setDramByte pa x).measure = s.measure := rfl
@[simp] theorem State.setDramByte_measureLocked (s : State) (pa : Nat) (x : Byte) : (s.setDramByte pa x).measureLocked = s.measureLocked := rfl
@[simp] theorem State.setDramByte_starts (s : State) (pa : Nat) (x : Byte) : (s.setDramByte pa x).starts = s.starts := rfl
@[simp] theorem State.setDramByte_failedStarts (s : State) (pa : Nat) (x : Byte) : (s.setDramByte pa x).failedStarts = s.failedStarts := rfl
@[simp] theorem State.setDramByte_failures (s : State) (pa : Nat) (x : Byte) : (s.setDramByte pa x).failures = s.failures := rfl
@[simp] theorem State.setDramByte_bootFailed (s : State) (pa : Nat) (x : Byte) : (s.setDramByte pa x).bootFailed = s.bootFailed := rfl
@[simp] theorem State.setDramByte_recovery (s : State) (pa : Nat) (x : Byte) : (s.setDramByte pa x).recovery = s.recovery := rfl
@[simp] theorem State.setDramByte_held (s : State) (pa : Nat) (x : Byte) : (s.setDramByte pa x).held = s.held := rfl
@[simp] theorem State.setDramByte_group (s : State) (pa : Nat) (x : Byte) : (s.setDramByte pa x).group = s.group := rfl
@[simp] theorem State.setDramByte_floorState (s : State) (pa : Nat) (x : Byte) : (s.setDramByte pa x).floorState = s.floorState := rfl
@[simp] theorem State.setDramByte_cool (s : State) (pa : Nat) (x : Byte) : (s.setDramByte pa x).cool = s.cool := rfl
@[simp] theorem State.setDramByte_hemFailed (s : State) (pa : Nat) (x : Byte) : (s.setDramByte pa x).hemFailed = s.hemFailed := rfl
@[simp] theorem State.setDramByte_portsDown (s : State) (pa : Nat) (x : Byte) : (s.setDramByte pa x).portsDown = s.portsDown := rfl
@[simp] theorem State.setDramByte_brk (s : State) (pa : Nat) (x : Byte) : (s.setDramByte pa x).brk = s.brk := rfl
@[simp] theorem State.setDramByte_logs (s : State) (pa : Nat) (x : Byte) : (s.setDramByte pa x).logs = s.logs := rfl
@[simp] theorem State.setDramByte_routines (s : State) (pa : Nat) (x : Byte) : (s.setDramByte pa x).routines = s.routines := rfl
@[simp] theorem State.setDramByte_microcode (s : State) (pa : Nat) (x : Byte) : (s.setDramByte pa x).microcode = s.microcode := rfl
@[simp] theorem State.setDramByte_agenda (s : State) (pa : Nat) (x : Byte) : (s.setDramByte pa x).agenda = s.agenda := rfl
@[simp] theorem State.setDramByte_issueQ (s : State) (pa : Nat) (x : Byte) : (s.setDramByte pa x).issueQ = s.issueQ := rfl
@[simp] theorem State.setDramByte_cur (s : State) (pa : Nat) (x : Byte) : (s.setDramByte pa x).cur = s.cur := rfl
@[simp] theorem State.setDramByte_nextId (s : State) (pa : Nat) (x : Byte) : (s.setDramByte pa x).nextId = s.nextId := rfl
@[simp] theorem State.setDramByte_fresh (s : State) (pa : Nat) (x : Byte) : (s.setDramByte pa x).fresh = s.fresh := rfl

/-! ### dropLine changes `lines` alone -/

@[simp] theorem State.dropLine_clk (s : State) (ln : Nat) : (s.dropLine ln).clk = s.clk := rfl
@[simp] theorem State.dropLine_devno (s : State) (ln : Nat) : (s.dropLine ln).devno = s.devno := rfl
@[simp] theorem State.dropLine_asidbase (s : State) (ln : Nat) : (s.dropLine ln).asidbase = s.asidbase := rfl
@[simp] theorem State.dropLine_tvecsel (s : State) (ln : Nat) : (s.dropLine ln).tvecsel = s.tvecsel := rfl
@[simp] theorem State.dropLine_tvec (s : State) (ln : Nat) : (s.dropLine ln).tvec = s.tvec := rfl
@[simp] theorem State.dropLine_placement (s : State) (ln : Nat) : (s.dropLine ln).placement = s.placement := rfl
@[simp] theorem State.dropLine_mem (s : State) (ln : Nat) : (s.dropLine ln).mem = s.mem := rfl
@[simp] theorem State.dropLine_poison (s : State) (ln : Nat) : (s.dropLine ln).poison = s.poison := rfl
@[simp] theorem State.dropLine_reqs (s : State) (ln : Nat) : (s.dropLine ln).reqs = s.reqs := rfl
@[simp] theorem State.dropLine_releases (s : State) (ln : Nat) : (s.dropLine ln).releases = s.releases := rfl
@[simp] theorem State.dropLine_fences (s : State) (ln : Nat) : (s.dropLine ln).fences = s.fences := rfl
@[simp] theorem State.dropLine_quads (s : State) (ln : Nat) : (s.dropLine ln).quads = s.quads := rfl
@[simp] theorem State.dropLine_branches (s : State) (ln : Nat) : (s.dropLine ln).branches = s.branches := rfl
@[simp] theorem State.dropLine_walks (s : State) (ln : Nat) : (s.dropLine ln).walks = s.walks := rfl
@[simp] theorem State.dropLine_threads (s : State) (ln : Nat) : (s.dropLine ln).threads = s.threads := rfl
@[simp] theorem State.dropLine_ckpts (s : State) (ln : Nat) : (s.dropLine ln).ckpts = s.ckpts := rfl
@[simp] theorem State.dropLine_taken (s : State) (ln : Nat) : (s.dropLine ln).taken = s.taken := rfl
@[simp] theorem State.dropLine_blocks (s : State) (ln : Nat) : (s.dropLine ln).blocks = s.blocks := rfl
@[simp] theorem State.dropLine_slices (s : State) (ln : Nat) : (s.dropLine ln).slices = s.slices := rfl
@[simp] theorem State.dropLine_cores (s : State) (ln : Nat) : (s.dropLine ln).cores = s.cores := rfl
@[simp] theorem State.dropLine_sites (s : State) (ln : Nat) : (s.dropLine ln).sites = s.sites := rfl
@[simp] theorem State.dropLine_queues (s : State) (ln : Nat) : (s.dropLine ln).queues = s.queues := rfl
@[simp] theorem State.dropLine_turns (s : State) (ln : Nat) : (s.dropLine ln).turns = s.turns := rfl
@[simp] theorem State.dropLine_launches (s : State) (ln : Nat) : (s.dropLine ln).launches = s.launches := rfl
@[simp] theorem State.dropLine_graphs (s : State) (ln : Nat) : (s.dropLine ln).graphs = s.graphs := rfl
@[simp] theorem State.dropLine_runs (s : State) (ln : Nat) : (s.dropLine ln).runs = s.runs := rfl
@[simp] theorem State.dropLine_saved (s : State) (ln : Nat) : (s.dropLine ln).saved = s.saved := rfl
@[simp] theorem State.dropLine_badAreas (s : State) (ln : Nat) : (s.dropLine ln).badAreas = s.badAreas := rfl
@[simp] theorem State.dropLine_migrations (s : State) (ln : Nat) : (s.dropLine ln).migrations = s.migrations := rfl
@[simp] theorem State.dropLine_quiltSince (s : State) (ln : Nat) : (s.dropLine ln).quiltSince = s.quiltSince := rfl
@[simp] theorem State.dropLine_drainMax (s : State) (ln : Nat) : (s.dropLine ln).drainMax = s.drainMax := rfl
@[simp] theorem State.dropLine_routes (s : State) (ln : Nat) : (s.dropLine ln).routes = s.routes := rfl
@[simp] theorem State.dropLine_filter (s : State) (ln : Nat) : (s.dropLine ln).filter = s.filter := rfl
@[simp] theorem State.dropLine_refusedFrom (s : State) (ln : Nat) : (s.dropLine ln).refusedFrom = s.refusedFrom := rfl
@[simp] theorem State.dropLine_qps (s : State) (ln : Nat) : (s.dropLine ln).qps = s.qps := rfl
@[simp] theorem State.dropLine_cycleWrites (s : State) (ln : Nat) : (s.dropLine ln).cycleWrites = s.cycleWrites := rfl
@[simp] theorem State.dropLine_out (s : State) (ln : Nat) : (s.dropLine ln).out = s.out := rfl
@[simp] theorem State.dropLine_measure (s : State) (ln : Nat) : (s.dropLine ln).measure = s.measure := rfl
@[simp] theorem State.dropLine_measureLocked (s : State) (ln : Nat) : (s.dropLine ln).measureLocked = s.measureLocked := rfl
@[simp] theorem State.dropLine_starts (s : State) (ln : Nat) : (s.dropLine ln).starts = s.starts := rfl
@[simp] theorem State.dropLine_failedStarts (s : State) (ln : Nat) : (s.dropLine ln).failedStarts = s.failedStarts := rfl
@[simp] theorem State.dropLine_failures (s : State) (ln : Nat) : (s.dropLine ln).failures = s.failures := rfl
@[simp] theorem State.dropLine_bootFailed (s : State) (ln : Nat) : (s.dropLine ln).bootFailed = s.bootFailed := rfl
@[simp] theorem State.dropLine_recovery (s : State) (ln : Nat) : (s.dropLine ln).recovery = s.recovery := rfl
@[simp] theorem State.dropLine_held (s : State) (ln : Nat) : (s.dropLine ln).held = s.held := rfl
@[simp] theorem State.dropLine_group (s : State) (ln : Nat) : (s.dropLine ln).group = s.group := rfl
@[simp] theorem State.dropLine_floorState (s : State) (ln : Nat) : (s.dropLine ln).floorState = s.floorState := rfl
@[simp] theorem State.dropLine_cool (s : State) (ln : Nat) : (s.dropLine ln).cool = s.cool := rfl
@[simp] theorem State.dropLine_hemFailed (s : State) (ln : Nat) : (s.dropLine ln).hemFailed = s.hemFailed := rfl
@[simp] theorem State.dropLine_portsDown (s : State) (ln : Nat) : (s.dropLine ln).portsDown = s.portsDown := rfl
@[simp] theorem State.dropLine_brk (s : State) (ln : Nat) : (s.dropLine ln).brk = s.brk := rfl
@[simp] theorem State.dropLine_logs (s : State) (ln : Nat) : (s.dropLine ln).logs = s.logs := rfl
@[simp] theorem State.dropLine_routines (s : State) (ln : Nat) : (s.dropLine ln).routines = s.routines := rfl
@[simp] theorem State.dropLine_microcode (s : State) (ln : Nat) : (s.dropLine ln).microcode = s.microcode := rfl
@[simp] theorem State.dropLine_agenda (s : State) (ln : Nat) : (s.dropLine ln).agenda = s.agenda := rfl
@[simp] theorem State.dropLine_issueQ (s : State) (ln : Nat) : (s.dropLine ln).issueQ = s.issueQ := rfl
@[simp] theorem State.dropLine_cur (s : State) (ln : Nat) : (s.dropLine ln).cur = s.cur := rfl
@[simp] theorem State.dropLine_nextId (s : State) (ln : Nat) : (s.dropLine ln).nextId = s.nextId := rfl
@[simp] theorem State.dropLine_fresh (s : State) (ln : Nat) : (s.dropLine ln).fresh = s.fresh := rfl

end Sys2Proof.Machine
end

