-- ==== Sys2Proof/Laws/Parts.lean ====
section
/-!
SUPPORT. What threads, blocks, cores, sites, slices, queues and launches read after an update of one of them.
-/
namespace Sys2Proof.Machine

@[simp] theorem State.thread?_setThread_self (s : State) (tk : Nat) (t : Thread) : (s.setThread tk t).thread? tk = some t := by
  simp [State.thread?, State.setThread]
theorem State.thread?_setThread_ne (s : State) (tk : Nat) (t : Thread) {k : Nat} (h : k ≠ tk) :
    (s.setThread tk t).thread? k = s.thread? k := by
  simp only [State.thread?, State.setThread]; exact Sparse.get?_set_ne _ _ h
@[simp] theorem State.thread?_setBlock (s : State) (bk : Nat) (b : Block) (j : Nat) : (s.setBlock bk b).thread? j = s.thread? j := rfl
@[simp] theorem State.thread?_setLaunch (s : State) (i : Nat) (x : Launch) (j : Nat) : (s.setLaunch i x).thread? j = s.thread? j := rfl
@[simp] theorem State.thread?_setCore (s : State) (c : Nat) (x : Core) (j : Nat) : (s.setCore c x).thread? j = s.thread? j := rfl
@[simp] theorem State.thread?_setSite (s : State) (i : Nat) (x : Site) (j : Nat) : (s.setSite i x).thread? j = s.thread? j := rfl
@[simp] theorem State.thread?_setQueue (s : State) (q : Nat) (x : Queue) (j : Nat) : (s.setQueue q x).thread? j = s.thread? j := rfl
@[simp] theorem State.thread?_setSlice (s : State) (c sl : Nat) (x : Slice) (j : Nat) : (s.setSlice c sl x).thread? j = s.thread? j := rfl
@[simp] theorem State.thread?_emit (s : State) (m : Msg) (j : Nat) : (s.emit m).thread? j = s.thread? j := rfl
@[simp] theorem State.thread?_log (s : State) (k : Nat) (j : Nat) : (s.log k).thread? j = s.thread? j := rfl
@[simp] theorem State.thread?_bumpId (s : State) (j : Nat) : (s.bumpId).thread? j = s.thread? j := rfl
@[simp] theorem State.thread?_bumpFresh (s : State) (j : Nat) : (s.bumpFresh).thread? j = s.thread? j := rfl
@[simp] theorem State.thread?_setDramByte (s : State) (pa : Nat) (x : Byte) (j : Nat) : (s.setDramByte pa x).thread? j = s.thread? j := rfl
@[simp] theorem State.thread?_dropLine (s : State) (ln : Nat) (j : Nat) : (s.dropLine ln).thread? j = s.thread? j := rfl

@[simp] theorem State.block?_setBlock_self (s : State) (bk : Nat) (b : Block) : (s.setBlock bk b).block? bk = some b := by
  simp [State.block?, State.setBlock]
theorem State.block?_setBlock_ne (s : State) (bk : Nat) (b : Block) {k : Nat} (h : k ≠ bk) :
    (s.setBlock bk b).block? k = s.block? k := by
  simp only [State.block?, State.setBlock]; exact Sparse.get?_set_ne _ _ h
@[simp] theorem State.block?_setThread (s : State) (tk : Nat) (t : Thread) (j : Nat) : (s.setThread tk t).block? j = s.block? j := rfl
@[simp] theorem State.block?_setLaunch (s : State) (i : Nat) (x : Launch) (j : Nat) : (s.setLaunch i x).block? j = s.block? j := rfl
@[simp] theorem State.block?_setCore (s : State) (c : Nat) (x : Core) (j : Nat) : (s.setCore c x).block? j = s.block? j := rfl
@[simp] theorem State.block?_setSite (s : State) (i : Nat) (x : Site) (j : Nat) : (s.setSite i x).block? j = s.block? j := rfl
@[simp] theorem State.block?_setQueue (s : State) (q : Nat) (x : Queue) (j : Nat) : (s.setQueue q x).block? j = s.block? j := rfl
@[simp] theorem State.block?_setSlice (s : State) (c sl : Nat) (x : Slice) (j : Nat) : (s.setSlice c sl x).block? j = s.block? j := rfl
@[simp] theorem State.block?_emit (s : State) (m : Msg) (j : Nat) : (s.emit m).block? j = s.block? j := rfl
@[simp] theorem State.block?_log (s : State) (k : Nat) (j : Nat) : (s.log k).block? j = s.block? j := rfl
@[simp] theorem State.block?_bumpId (s : State) (j : Nat) : (s.bumpId).block? j = s.block? j := rfl
@[simp] theorem State.block?_bumpFresh (s : State) (j : Nat) : (s.bumpFresh).block? j = s.block? j := rfl
@[simp] theorem State.block?_setDramByte (s : State) (pa : Nat) (x : Byte) (j : Nat) : (s.setDramByte pa x).block? j = s.block? j := rfl
@[simp] theorem State.block?_dropLine (s : State) (ln : Nat) (j : Nat) : (s.dropLine ln).block? j = s.block? j := rfl

@[simp] theorem State.launch?_setLaunch_self (s : State) (i : Nat) (x : Launch) : (s.setLaunch i x).launch? i = some x := by
  simp [State.launch?, State.setLaunch]
theorem State.launch?_setLaunch_ne (s : State) (i : Nat) (x : Launch) {k : Nat} (h : k ≠ i) :
    (s.setLaunch i x).launch? k = s.launch? k := by
  simp only [State.launch?, State.setLaunch]; exact Sparse.get?_set_ne _ _ h
@[simp] theorem State.launch?_setThread (s : State) (tk : Nat) (t : Thread) (j : Nat) : (s.setThread tk t).launch? j = s.launch? j := rfl
@[simp] theorem State.launch?_setBlock (s : State) (bk : Nat) (b : Block) (j : Nat) : (s.setBlock bk b).launch? j = s.launch? j := rfl
@[simp] theorem State.launch?_setCore (s : State) (c : Nat) (x : Core) (j : Nat) : (s.setCore c x).launch? j = s.launch? j := rfl
@[simp] theorem State.launch?_setSite (s : State) (i : Nat) (x : Site) (j : Nat) : (s.setSite i x).launch? j = s.launch? j := rfl
@[simp] theorem State.launch?_setQueue (s : State) (q : Nat) (x : Queue) (j : Nat) : (s.setQueue q x).launch? j = s.launch? j := rfl
@[simp] theorem State.launch?_setSlice (s : State) (c sl : Nat) (x : Slice) (j : Nat) : (s.setSlice c sl x).launch? j = s.launch? j := rfl
@[simp] theorem State.launch?_emit (s : State) (m : Msg) (j : Nat) : (s.emit m).launch? j = s.launch? j := rfl
@[simp] theorem State.launch?_log (s : State) (k : Nat) (j : Nat) : (s.log k).launch? j = s.launch? j := rfl
@[simp] theorem State.launch?_bumpId (s : State) (j : Nat) : (s.bumpId).launch? j = s.launch? j := rfl
@[simp] theorem State.launch?_bumpFresh (s : State) (j : Nat) : (s.bumpFresh).launch? j = s.launch? j := rfl
@[simp] theorem State.launch?_setDramByte (s : State) (pa : Nat) (x : Byte) (j : Nat) : (s.setDramByte pa x).launch? j = s.launch? j := rfl
@[simp] theorem State.launch?_dropLine (s : State) (ln : Nat) (j : Nat) : (s.dropLine ln).launch? j = s.launch? j := rfl

@[simp] theorem State.core_setCore_self (s : State) (c : Nat) (x : Core) : (s.setCore c x).core c = x := by
  simp [State.core, State.setCore]
theorem State.core_setCore_ne (s : State) (c : Nat) (x : Core) {k : Nat} (h : k ≠ c) :
    (s.setCore c x).core k = s.core k := by
  simp only [State.core, State.setCore]; exact Sparse.getD_set_ne _ _ _ h
@[simp] theorem State.core_setThread (s : State) (tk : Nat) (t : Thread) (j : Nat) : (s.setThread tk t).core j = s.core j := rfl
@[simp] theorem State.core_setBlock (s : State) (bk : Nat) (b : Block) (j : Nat) : (s.setBlock bk b).core j = s.core j := rfl
@[simp] theorem State.core_setLaunch (s : State) (i : Nat) (x : Launch) (j : Nat) : (s.setLaunch i x).core j = s.core j := rfl
@[simp] theorem State.core_setSite (s : State) (i : Nat) (x : Site) (j : Nat) : (s.setSite i x).core j = s.core j := rfl
@[simp] theorem State.core_setQueue (s : State) (q : Nat) (x : Queue) (j : Nat) : (s.setQueue q x).core j = s.core j := rfl
@[simp] theorem State.core_setSlice (s : State) (c sl : Nat) (x : Slice) (j : Nat) : (s.setSlice c sl x).core j = s.core j := rfl
@[simp] theorem State.core_emit (s : State) (m : Msg) (j : Nat) : (s.emit m).core j = s.core j := rfl
@[simp] theorem State.core_log (s : State) (k : Nat) (j : Nat) : (s.log k).core j = s.core j := rfl
@[simp] theorem State.core_bumpId (s : State) (j : Nat) : (s.bumpId).core j = s.core j := rfl
@[simp] theorem State.core_bumpFresh (s : State) (j : Nat) : (s.bumpFresh).core j = s.core j := rfl
@[simp] theorem State.core_setDramByte (s : State) (pa : Nat) (x : Byte) (j : Nat) : (s.setDramByte pa x).core j = s.core j := rfl
@[simp] theorem State.core_dropLine (s : State) (ln : Nat) (j : Nat) : (s.dropLine ln).core j = s.core j := rfl

@[simp] theorem State.site_setSite_self (s : State) (i : Nat) (x : Site) : (s.setSite i x).site i = x := by
  simp [State.site, State.setSite]
theorem State.site_setSite_ne (s : State) (i : Nat) (x : Site) {k : Nat} (h : k ≠ i) :
    (s.setSite i x).site k = s.site k := by
  simp only [State.site, State.setSite]; exact Sparse.getD_set_ne _ _ _ h
@[simp] theorem State.site_setThread (s : State) (tk : Nat) (t : Thread) (j : Nat) : (s.setThread tk t).site j = s.site j := rfl
@[simp] theorem State.site_setBlock (s : State) (bk : Nat) (b : Block) (j : Nat) : (s.setBlock bk b).site j = s.site j := rfl
@[simp] theorem State.site_setLaunch (s : State) (i : Nat) (x : Launch) (j : Nat) : (s.setLaunch i x).site j = s.site j := rfl
@[simp] theorem State.site_setCore (s : State) (c : Nat) (x : Core) (j : Nat) : (s.setCore c x).site j = s.site j := rfl
@[simp] theorem State.site_setQueue (s : State) (q : Nat) (x : Queue) (j : Nat) : (s.setQueue q x).site j = s.site j := rfl
@[simp] theorem State.site_setSlice (s : State) (c sl : Nat) (x : Slice) (j : Nat) : (s.setSlice c sl x).site j = s.site j := rfl
@[simp] theorem State.site_emit (s : State) (m : Msg) (j : Nat) : (s.emit m).site j = s.site j := rfl
@[simp] theorem State.site_log (s : State) (k : Nat) (j : Nat) : (s.log k).site j = s.site j := rfl
@[simp] theorem State.site_bumpId (s : State) (j : Nat) : (s.bumpId).site j = s.site j := rfl
@[simp] theorem State.site_bumpFresh (s : State) (j : Nat) : (s.bumpFresh).site j = s.site j := rfl
@[simp] theorem State.site_setDramByte (s : State) (pa : Nat) (x : Byte) (j : Nat) : (s.setDramByte pa x).site j = s.site j := rfl
@[simp] theorem State.site_dropLine (s : State) (ln : Nat) (j : Nat) : (s.dropLine ln).site j = s.site j := rfl

@[simp] theorem State.queue_setQueue_self (s : State) (q : Nat) (x : Queue) : (s.setQueue q x).queue q = x := by
  simp [State.queue, State.setQueue]
theorem State.queue_setQueue_ne (s : State) (q : Nat) (x : Queue) {k : Nat} (h : k ≠ q) :
    (s.setQueue q x).queue k = s.queue k := by
  simp only [State.queue, State.setQueue]; exact Sparse.getD_set_ne _ _ _ h
@[simp] theorem State.queue_setThread (s : State) (tk : Nat) (t : Thread) (j : Nat) : (s.setThread tk t).queue j = s.queue j := rfl
@[simp] theorem State.queue_setBlock (s : State) (bk : Nat) (b : Block) (j : Nat) : (s.setBlock bk b).queue j = s.queue j := rfl
@[simp] theorem State.queue_setLaunch (s : State) (i : Nat) (x : Launch) (j : Nat) : (s.setLaunch i x).queue j = s.queue j := rfl
@[simp] theorem State.queue_setCore (s : State) (c : Nat) (x : Core) (j : Nat) : (s.setCore c x).queue j = s.queue j := rfl
@[simp] theorem State.queue_setSite (s : State) (i : Nat) (x : Site) (j : Nat) : (s.setSite i x).queue j = s.queue j := rfl
@[simp] theorem State.queue_setSlice (s : State) (c sl : Nat) (x : Slice) (j : Nat) : (s.setSlice c sl x).queue j = s.queue j := rfl
@[simp] theorem State.queue_emit (s : State) (m : Msg) (j : Nat) : (s.emit m).queue j = s.queue j := rfl
@[simp] theorem State.queue_log (s : State) (k : Nat) (j : Nat) : (s.log k).queue j = s.queue j := rfl
@[simp] theorem State.queue_bumpId (s : State) (j : Nat) : (s.bumpId).queue j = s.queue j := rfl
@[simp] theorem State.queue_bumpFresh (s : State) (j : Nat) : (s.bumpFresh).queue j = s.queue j := rfl
@[simp] theorem State.queue_setDramByte (s : State) (pa : Nat) (x : Byte) (j : Nat) : (s.setDramByte pa x).queue j = s.queue j := rfl
@[simp] theorem State.queue_dropLine (s : State) (ln : Nat) (j : Nat) : (s.dropLine ln).queue j = s.queue j := rfl

end Sys2Proof.Machine
end

