-- ==== Sys2Proof/Laws/Ops.lean ====
section
/-!
SUPPORT. What each shared operation on threads, flags, stitches and traps can do.
-/
namespace Sys2Proof.Machine

/-! ### Bytes -/

theorem SameBytes.refl (s : State) : SameBytes s s := ⟨fun _ => rfl, fun _ _ => rfl⟩
theorem SameBytes.trans {s t u : State} (h : SameBytes s t) (g : SameBytes t u) : SameBytes s u :=
  ⟨fun pa => (g.dram pa).trans (h.dram pa), fun c o => (g.scratch c o).trans (h.scratch c o)⟩

/-- Bytes depend on DRAM, its unspecified quads, the L2 lines, the device number and the cores alone. -/
theorem SameBytes.of_parts {s s' : State} (hm : s'.mem = s.mem) (hq : s'.quads = s.quads) (hl : s'.lines = s.lines)
    (hd : s'.devno = s.devno) (hc : s'.cores = s.cores) : SameBytes s s' := by
  refine ⟨fun pa => ?_, fun c o => ?_⟩
  · simp [State.homeByte, State.ownDram, State.dramByte, State.quadMask, hm, hq, hl, hd]
  · simp [State.core, hc]

/-! ### Registers -/

theorem Thread.reg_setReg (t : Thread) (n r : Nat) (x : Word) : (t.setReg n x).reg r = if r = n then x else t.reg r := by
  simp [Thread.reg, Thread.setReg, Sparse.getD_set]

theorem Thread.setReg_marks (t : Thread) (n r : Nat) (x : Word) :
    Sparse.get? (t.setReg n x).marks r = if r = n then none else Sparse.get? t.marks r := by
  simp [Thread.setReg, Sparse.get?_erase]

theorem Thread.setRegs_rest (t : Thread) (d n x : Nat) :
    t.setRegs d n x = { t with v := (t.setRegs d n x).v, marks := (t.setRegs d n x).marks } := by
  induction n generalizing t d x with
  | zero => rfl
  | succ n ih => simp only [Thread.setRegs]; rw [ih]; rfl

/-- Writing consecutive registers (R116). -/
theorem Thread.setRegs_wrote (t : Thread) (d n x : Nat) : WroteRegs t (t.setRegs d n x) d n x := by
  refine ⟨?_, ?_, ?_, ?_⟩
  · induction n generalizing t d x with
    | zero => intro r; simp only [Thread.setRegs]; rw [if_neg (by omega)]
    | succ n ih =>
      intro r
      simp only [Thread.setRegs, ih, Thread.reg_setReg]
      by_cases h : r = d
      · subst h; simp <;> omega
      · by_cases h2 : d + 1 ≤ r ∧ r < d + 1 + n
        · rw [if_pos h2, if_pos (by omega)]
          have e : 32 * (r - d) = 32 + 32 * (r - (d + 1)) := by omega
          rw [e, Nat.pow_add, Nat.div_div_eq_div_mul]
        · rw [if_neg h2, if_neg h, if_neg (by omega)]
  · induction n generalizing t d x with
    | zero => intro r; simp only [Thread.setRegs]; rw [if_neg (by omega)]
    | succ n ih =>
      intro r
      simp only [Thread.setRegs, ih, Thread.setReg_marks]
      by_cases h : r = d
      · subst h; simp
      · by_cases h2 : d + 1 ≤ r ∧ r < d + 1 + n
        · rw [if_pos h2, if_pos (by omega)]
        · rw [if_neg h2, if_neg h, if_neg (by omega)]
  · rw [Thread.setRegs_rest]
  · rw [Thread.setRegs_rest]

theorem Thread.setPred_rest (t : Thread) (i : Nat) (x : Bool) : t.setPred i x = { t with p := (t.setPred i x).p } := by
  unfold Thread.setPred; split <;> rfl

/-- Writing a predicate; p0 discards it (R117). -/
theorem Thread.setPred_wrote (t : Thread) {i : Nat} (hi : i < 8) (x : Bool) : WrotePred t (t.setPred i x) i x := by
  refine ⟨?_, ?_, ?_, ?_⟩
  · rw [Thread.setPred_rest]
  · rw [Thread.setPred_rest]
  · rw [Thread.setPred_rest]
  · intro j hj
    unfold Thread.setPred
    split
    · rename_i h; subst h; rw [if_neg (by omega)]
    · rename_i h
      simp only [Thread.pred]
      rcases Nat.eq_zero_or_pos j with rfl | hpos
      · simp
      · have hj0 : j ≠ 0 := by omega
        by_cases e : j = i
        · subst e; cases x <;> simp [hj, hj0]
        · by_cases hlt : j < i
          · cases x <;> simp [hj, hj0, e, hlt]
          · have hd : j - i ≠ 0 := by omega
            cases x <;> simp [hj, hj0, e, hd]

/-! ### Flags -/

theorem Block.land_set (b : Block) (h : FlagHome) (w : FlagWord) : FlagsSet b (b.land h w) h w := by
  unfold Block.land
  split
  · rename_i e; subst e
    refine ⟨rfl, fun k => ?_, ?_⟩
    · split <;> simp
    · simp
  · cases h with
    | skein k =>
      refine ⟨rfl, fun j => ?_, ?_⟩
      · by_cases e : j = k
        · subst e; simp [Sparse.getD_modify_self]
        · simp [Sparse.getD_modify_ne _ _ _ e, Ne.symm e]
      · simp
    | trap n =>
      refine ⟨rfl, fun j => ?_, ?_⟩
      · simp
      · apply List.map_congr_left; intro z _; simp [eq_comm]

theorem Block.raise_set (b : Block) (clk : Nat) (h : FlagHome) (w : FlagWord) : FlagsSet b (b.raise clk h w) h w := by
  have hl := Block.land_set b h w
  unfold Block.raise
  split
  · rename_i e; subst e; simpa [Block.land] using hl
  · cases h with
    | skein k => exact ⟨by rw [hl.rest], hl.skeins, hl.traps⟩
    | trap n => exact hl

theorem State.raiseFlags_user (s : State) (tk : Nat) {t : Thread} (ht : s.thread? tk = some t) (hs : t.spec = none)
    (h : FlagHome) (w : FlagWord) (d : Nat) :
    s.raiseFlags tk h w d =
      if w = 0 then s else s.setThread tk { t with flagsDue := t.flagsDue ++ [(d, h, w)] } := by
  unfold State.raiseFlags
  split
  · rfl
  · simp [State.modThread, ht, hs]

/-! ### One thread alone in its stitch -/

theorem issueAll_alone {op : Op} {f : Fields} {s : State} {tk : Nat} {t : Thread} {b : Block} (h : Executes op f s tk t b)
    (body : Nat → Thread → Block → State → State) : issueAll op f body s = body tk t b s := by
  simp [issueAll, h.members, issueThread, issueMember, h.thread, h.block, h.live, h.noTrap, h.noSpec, h.top, h.guard, h.word]

/-- A thread whose guard is false retires without effect (R114). -/
theorem issueAll_guarded {op : Op} {f : Fields} {s : State} {tk : Nat} {t : Thread} {b : Block} (h : Alone s tk t b)
    (hg : guardOf t f = false) (body : Nat → Thread → Block → State → State) :
    issueAll op f body s = s.setThread tk t.retire := by
  simp [issueAll, h.members, issueThread, issueMember, h.thread, h.block, h.live, h.noTrap, h.noSpec, h.top, hg]

/-- A rejected word, or a marked source, traps before the instruction has any effect (R370, R402). -/
theorem issueAll_trap {op : Op} {f : Fields} {s : State} {tk : Nat} {t : Thread} {b : Block} (h : Alone s tk t b)
    (hg : guardOf t f = true) {i : TrapInfo} (hw : wordTrap op f t b = some i) (body : Nat → Thread → Block → State → State) :
    issueAll op f body s = s.takeTrap tk i s.cur.id false := by
  simp [issueAll, h.members, issueThread, issueMember, h.thread, h.block, h.live, h.noTrap, h.noSpec, h.top, hg, hw]

/-! ### Instructions that only compute -/

theorem Thread.readyFrom_rest (t : Thread) (op : Op) (lim : Limits) (f : Fields) (n : Nat) :
    t.readyFrom op lim f n = { t with
      readyAt := (t.readyFrom op lim f n).readyAt, predAt := (t.readyFrom op lim f n).predAt
      bankAt := (t.readyFrom op lim f n).bankAt, pends := (t.readyFrom op lim f n).pends } := rfl

theorem Thread.readyFrom_windows (t : Thread) (op : Op) (lim : Limits) (f : Fields) (n : Nat) :
    (t.readyFrom op lim f n).pends.map (fun p => { p with overAt := [], predOver := 0 }) =
      t.pends.map (fun p => { p with overAt := [], predOver := 0 }) := by
  simp [Thread.readyFrom]

/-- A state in which one thread has gone on, its flags are to be set and a free value has been drawn. -/
theorem Computed.of_setThread {s : State} {tk : Nat} {t u : Thread} {b : Block} (hb : s.block? (tkBk tk) = some b)
    (hsp : t.spec = none) (hu : WentOn t u (pcNext t.pc)) (hw : t.windowsOn u) (w : FlagWord) {d : Nat}
    (hd : s.now (tkCore tk) ≤ d) :
    ∃ u', u' = { u with flagsDue := u'.flagsDue } ∧
      Computed s (((s.setThread tk u).raiseFlags tk (flagHome t) w d).bumpFresh) tk t u' b w := by
  have husp : u.spec = none := by rw [hu.rest]; exact hsp
  have huf : u.flagsDue = t.flagsDue := by rw [hu.rest]
  rw [State.raiseFlags_user (s.setThread tk u) tk (State.thread?_setThread_self s tk u) husp]
  split
  · rename_i e; subst e
    refine ⟨u, rfl, by simp, ?_, ⟨d, hd, by simp [huf]⟩, hw, fun k hk => by simp [State.thread?_setThread_ne s tk u hk],
      by simpa using hb, rfl, rfl, SameBytes.of_parts rfl rfl rfl rfl rfl⟩
    rw [← huf]; exact hu
  · rename_i e
    refine ⟨{ u with flagsDue := u.flagsDue ++ [(d, flagHome t, w)] }, rfl, by simp, ?_, ⟨d, hd, by rw [if_neg e, huf]⟩, hw,
      fun k hk => by simp [State.thread?_setThread_ne _ tk _ hk], by simpa using hb, rfl, rfl,
      SameBytes.of_parts rfl rfl rfl rfl rfl⟩
    rw [← huf]; exact hu

/-- A free latency is never negative: a result comes due in a cycle that is not past. -/
theorem State.now_le_due (s : State) (c figure : Nat) : s.now c ≤ s.due c figure := Nat.le_add_right _ _

/-- Delivering a result writes registers, marks, predicates and banked registers alone. -/
theorem Thread.deliver_rest (t : Thread) (op : Op) (lim : Limits) (f : Fields) (o : RegOut) :
    t.deliver op lim f o = { t with
      v := (t.deliver op lim f o).v, marks := (t.deliver op lim f o).marks, p := (t.deliver op lim f o).p
      h := (t.deliver op lim f o).h } := by
  have h1 : ∀ (m x : Nat), t.setRegs f.d.toNat m x =
      { t with v := (t.setRegs f.d.toNat m x).v, marks := (t.setRegs f.d.toNat m x).marks } :=
    fun m x => Thread.setRegs_rest _ _ _ _
  have h2 : ∀ (z : Thread) x, z.setPred (f.d.toNat % 8) x = { z with p := (z.setPred (f.d.toNat % 8) x).p } :=
    fun z x => Thread.setPred_rest _ _ _
  unfold Thread.deliver
  rcases o.val with _ | x <;> rcases (form op lim f).d with _ | _ | m | _ | _ <;> rcases o.pred with _ | y <;>
    rcases o.bank with _ | z <;> (try simp only []) <;> (try rw [h2]) <;> (try rw [h1])

/-- What a computing instruction does to its thread beside the results it delivers. -/
theorem deliver_goes {op : Op} {t : Thread} (ht : t.spec = none) (lim : Limits) (f : Fields) (o : RegOut) (n : Nat) :
    WentOn t (((t.retire).deliver op lim f o).readyFrom op lim f n) (pcNext t.pc) ∧
      t.windowsOn (((t.retire).deliver op lim f o).readyFrom op lim f n) := by
  have hr : t.retire = { t with
      pc := pcNext t.pc, wait := .none, pends := t.pends.map (fun p => { p with left := p.left - 1 }) } := by
    simp [Thread.retire, Thread.retireTo, ht]
  refine ⟨⟨?_, ?_⟩, ?_⟩
  · rw [Thread.readyFrom_rest, Thread.deliver_rest, hr]
  · rw [Thread.readyFrom_rest, Thread.deliver_rest, hr]
  · rw [Thread.windowsOn, Thread.readyFrom_windows, Thread.deliver_rest, hr]
    simp

/-- An instruction that only computes, alone in its stitch (R144). -/
theorem execCompute_alone {op : Op} {f : Fields} {s : State} {tk : Nat} {t : Thread} {b : Block} (h : Executes op f s tk t b)
    (fig : Nat) (g : Opnds → RegOut) :
    ∃ s' u n, execCompute op fig f g s = .next s' ∧
      u = { ((t.retire).deliver op b.limits f (g (readOpnds op t b f))).readyFrom op b.limits f n with flagsDue := u.flagsDue } ∧
      Computed s s' tk t u b (g (readOpnds op t b f)).flags := by
  have hd := deliver_goes h.noSpec b.limits f (g (readOpnds op t b f)) (s.due (tkCore tk) fig) (op := op)
  obtain ⟨u, e, hc⟩ := Computed.of_setThread h.block h.noSpec hd.1 hd.2 (g (readOpnds op t b f)).flags (s.now_le_due (tkCore tk) fig)
  exact ⟨_, u, _, by rw [execCompute, issueAll_alone h]; rfl, e, hc⟩

/-- One that delivers a number to n registers. -/
theorem execCompute_regs {op : Op} {f : Fields} {s : State} {tk : Nat} {t : Thread} {b : Block} (fig n x : Nat)
    {g : Opnds → RegOut} {w : FlagWord} (hd : (form op b.limits f).d = .reg n)
    (hg : g (readOpnds op t b f) = { val := some x, flags := w }) (P : Nat → Prop) (hP : P x) (i : Instr)
    (hi : exec i s = execCompute op fig f g s) : GivesRegs i op f s tk t b w n P := by
  intro h
  obtain ⟨s', u, k, e, hu, hc⟩ := execCompute_alone h fig g
  rw [hg] at hu hc
  refine ⟨s', u, x, hi.trans e, hc, ?_, hP⟩
  have hw := Thread.setRegs_wrote t.retire f.d.toNat n x
  rw [hu]
  simp only [Thread.deliver, hd, Thread.readyFrom]
  exact ⟨hw.regs, hw.marks, hw.preds, hw.banks⟩

/-- One that delivers a predicate. -/
theorem execCompute_pred {op : Op} {f : Fields} {s : State} {tk : Nat} {t : Thread} {b : Block} (fig : Nat) (x : Bool)
    {g : Opnds → RegOut} {w : FlagWord} (hg : g (readOpnds op t b f) = { pred := some x, flags := w }) (i : Instr)
    (hi : exec i s = execCompute op fig f g s) : GivesPred i op f s tk t b w x := by
  intro h
  obtain ⟨s', u, k, e, hu, hc⟩ := execCompute_alone h fig g
  rw [hg] at hu hc
  refine ⟨s', u, hi.trans e, hc, ?_⟩
  have hw := Thread.setPred_wrote t.retire (Nat.mod_lt f.d.toNat (by decide : 0 < 8)) x
  rw [hu]
  simp only [Thread.deliver, Thread.readyFrom]
  exact ⟨hw.regs, hw.marks, hw.banks, hw.preds⟩

end Sys2Proof.Machine
end

