-- ==== Sys2Proof/Laws/Access.lean ====
section
/-!
SUPPORT. What an instruction that accesses memory puts into flight.
-/
namespace Sys2Proof.Machine

/-- The fields of a new access that its instruction fixes. -/
structure IsNew (s0 : State) (tk : Nat) (t : Thread) (p : PortPiece) (a : Action) (o : Ord) (sc : Scope) (pend : Option Nat)
    (counted : Bool) (s : State) (r : Req) : Prop where
  id : r.id = s.nextId
  fields : r.tk = tk ∧ r.act = a ∧ r.place = p.place ∧ r.ord = o ∧ r.scope = reach p.place sc ∧ r.stage = .held ∧ r.pend = pend ∧
    r.part = p.part ∧ r.counted = counted ∧ r.before = t.hb ∧ r.home = flagHome t

theorem State.newReq_new (s0 s : State) (tk : Nat) (t : Thread) (b : Block) (a : Action) (p : PortPiece) (o : Ord) (sc : Scope)
    (pend : Option Nat) (group : Nat) (counted : Bool) (trap : TrapInfo) :
    IsNew s0 tk t p a o sc pend counted s (s.newReq tk t b a p o sc pend group counted trap) := by
  refine ⟨rfl, rfl, rfl, rfl, rfl, ?_, rfl, rfl, rfl, rfl, rfl, rfl⟩
  simp only [State.newReq, reach]
  cases p.place <;> simp [Place.isDev, Scope.clamp, Scope.narrow]
  cases sc <;> simp [Scope.rank]

/-- Adding one new access for each piece in turn. -/
theorem addReqs {s0 : State} {tk : Nat} {t : Thread} {act : PortPiece → Action} {o : Ord} {sc : Scope} {pend : Option Nat}
    {counted : Bool} (mk : State → PortPiece → Req) (hmk : ∀ s p, IsNew s0 tk t p (act p) o sc pend counted s (mk s p))
    (ps : List PortPiece) (s : State) (h : s0.nextId ≤ s.nextId) :
    ∃ rs n k, ps.foldl (fun s p => s.addReq (mk s p)) s = { s with reqs := s.reqs ++ rs, nextId := n, fresh := k } ∧
      s.nextId ≤ n ∧ rs.length = ps.length ∧ ∀ (i : Nat) (p : PortPiece) (r : Req), ps[i]? = some p → rs[i]? = some r →
        r.tk = tk ∧ r.act = act p ∧ r.place = p.place ∧ r.ord = o ∧ r.scope = reach p.place sc ∧ r.stage = .held ∧ r.pend = pend ∧
        r.part = p.part ∧ r.counted = counted ∧ r.before = t.hb ∧ r.home = flagHome t ∧ s0.nextId ≤ r.id ∧ r.id < n := by
  induction ps generalizing s with
  | nil => exact ⟨[], s.nextId, s.fresh, by simp, Nat.le_refl _, rfl, by simp⟩
  | cons q ps ih =>
    obtain ⟨rs, n, k, h1, h2, h3, h4⟩ := ih (s.addReq (mk s q)) (by simp [State.addReq, State.bumpId, State.bumpFresh]; omega)
    have hn : s.nextId + 1 ≤ n := by simpa [State.addReq, State.bumpId, State.bumpFresh] using h2
    refine ⟨mk s q :: rs, n, k, ?_, by omega, by simp [h3], ?_⟩
    · rw [List.foldl_cons, h1]; simp [State.addReq, State.bumpId, State.bumpFresh]
    · intro i p r hp hr
      cases i with
      | succ i => exact h4 i p r (by simpa using hp) (by simpa using hr)
      | zero =>
        simp only [List.getElem?_cons_zero, Option.some.injEq] at hp hr
        subst hp; subst hr
        obtain ⟨hid, f1, f2, f3, f4, f5, f6, f7, f8, f9, f10, f11⟩ := hmk s q
        exact ⟨f1, f2, f3, f4, f5, f6, f7, f8, f9, f10, f11, by omega, by omega⟩

/-- The accesses of one instruction whose thread has gone on. -/
theorem Sent.of_foldl {s0 s : State} {tk : Nat} {t u : Thread} {act : PortPiece → Action} {o : Ord} {sc : Scope} {pend : Option Nat}
    {counted : Bool} (mk : State → PortPiece → Req) (hmk : ∀ s p, IsNew s0 tk t p (act p) o sc pend counted s (mk s p))
    (hs : s = { s0 with threads := Sparse.set s0.threads tk u, nextId := s.nextId, fresh := s.fresh })
    (hn : s0.nextId ≤ s.nextId) (ps : List PortPiece) :
    Sent s0 (ps.foldl (fun s p => s.addReq (mk s p)) s) tk t u ps act o sc pend counted := by
  obtain ⟨rs, n, k, h1, h2, h3, h4⟩ := addReqs mk hmk ps s hn
  rw [h1]
  have ht : s.threads = Sparse.set s0.threads tk u := by rw [hs]
  have hr : s.reqs = s0.reqs := by rw [hs]
  refine ⟨?_, ?_, ?_, ⟨rs, ?_, h3, h4⟩, ?_⟩
  · simp [State.thread?, ht]
  · intro j hj; simp [State.thread?, ht, Sparse.get?_set_ne _ _ hj]
  · rw [hs]
  · simp [hr]
  · rw [hs]; exact SameBytes.of_parts rfl rfl rfl rfl rfl

/-- What a load puts into flight (R217). -/
theorem State.doLoad_sent (s : State) (op : Op) (f : Fields) (tk : Nat) (t : Thread) (b : Block) (q : PortAsk) (a : Nat) (o : Ord)
    (sc : Scope) (ps : List PortPiece) :
    ∃ p, Sent s (s.doLoad op f tk t b q a o sc ps) tk t { t.retire with pends := t.retire.pends ++ [p], walkFail := none } ps
        (fun c => .load c.len) o sc (some s.nextId) false ∧
      p = { memPend op b.limits f s.nextId q.n (.load q.n (decide (f.sz ≥ 5))) o.acquires p.due (flagHome t) with due := p.due } := by
  refine ⟨memPend op b.limits f s.nextId q.n (.load q.n (decide (f.sz ≥ 5))) o.acquires
    (s.loadDue tk ps) (flagHome t), ?_, rfl⟩
  exact Sent.of_foldl (s0 := s) _ (fun s1 p => State.newReq_new s s1 tk t b _ p o sc _ _ _ _)
    rfl (by simp [State.bumpId, State.bumpFresh]) ps

/-- The time of arrival is no part of what an access in flight is (R218, R223). -/
theorem IsNew.arrives {s0 s1 : State} {tk : Nat} {t : Thread} {p : PortPiece} {a : Action} {o : Ord} {sc : Scope} {pd : Option Nat}
    {x : Bool} {r : Req} (h : IsNew s0 tk t p a o sc pd x s1 r) : IsNew s0 tk t p a o sc pd x s1 (s1.sameArrival tk r) := by
  unfold State.sameArrival
  split
  · exact h
  · exact ⟨h.id, h.fields⟩

/-- What a read-modify-write puts into flight (R221, R225). -/
theorem State.doRmw_sent (s : State) (op : Op) (f : Fields) (tk : Nat) (t : Thread) (b : Block) (q : PortAsk) (a : Nat) (o : Ord)
    (sc : Scope) (act : Action) (c : PortPiece) :
    (∃ p, Sent s (s.doRmw op f tk t b q a o sc true act [c]) tk t
        { t.retire with pends := t.retire.pends ++ [p], walkFail := none } [c] (fun _ => act) o sc (some s.nextId) false ∧
      p = { memPend op b.limits f s.nextId q.n .atom o.acquires p.due (flagHome t) with due := p.due }) ∧
    Sent s (s.doRmw op f tk t b q a o sc false act [c]) tk t { t.retire with pst := t.pst + 1, walkFail := none } [c]
      (fun _ => act) o sc none true := by
  constructor
  · refine ⟨memPend op b.limits f s.nextId q.n .atom o.acquires (s.accessDue tk c.place (figureOf c.place act)) (flagHome t), ?_, rfl⟩
    exact Sent.of_foldl (s0 := s) (act := fun _ => act) _ (fun s1 p => (State.newReq_new s s1 tk t b act p o sc _ _ _ _).arrives)
      rfl (by simp [State.bumpId, State.bumpFresh]) [c]
  · exact Sent.of_foldl (s0 := s) (act := fun _ => act) _ (fun s1 p => (State.newReq_new s s1 tk t b act p o sc _ _ _ _).arrives)
      rfl (by simp) [c]

/-- What a store puts into flight (R218). -/
theorem State.doStore_sent (s : State) (tk : Nat) (t : Thread) (b : Block) (q : PortAsk) (a : Nat) (o : Ord) (sc : Scope)
    (bytes : List Byte) (ps : List PortPiece) :
    Sent s (s.doStore tk t b q a o sc bytes ps) tk t { t.retire with pst := t.pst + 1, walkFail := none } ps
      (fun p => .store ((bytes.drop p.part).take p.len)) o sc none true :=
  Sent.of_foldl (s0 := s) _ (fun s1 p => (State.newReq_new s s1 tk t b _ p o sc _ _ _ _).arrives)
    rfl (by simp) ps

end Sys2Proof.Machine
end

