-- ==== Sys2Proof/Laws/Memory.lean ====
section
/-!
SUPPORT. Every operation on DRAM, L2 lines and scratchpads keeps memory in its canonical form (log 1), and what the plain ones leave alone.
-/
namespace Sys2Proof.Machine

theorem State.reset_memOk : State.reset.memOk := rfl

/-! ### DRAM -/

theorem State.memOk_of_mem {s t : State} (h : s.memOk) (e : t.mem = s.mem) : t.memOk := by unfold State.memOk at *; rw [e]; exact h

theorem State.setDramByte_memOk {s : State} (h : s.memOk) (pa : Nat) (b : Byte) : (s.setDramByte pa b).memOk := Memory.wf_write h _ _

/-- Writing DRAM changes memory alone. -/
theorem State.setDram_rest (s : State) (pa : Nat) (bs : List Byte) : s.setDram pa bs = { s with mem := (s.setDram pa bs).mem } := by
  induction bs generalizing s pa with
  | nil => rfl
  | cons b r ih => simp only [State.setDram]; rw [ih]; rfl

theorem State.setDram_memOk {s : State} (h : s.memOk) (pa : Nat) (bs : List Byte) : (s.setDram pa bs).memOk := by
  induction bs generalizing s pa with
  | nil => exact h
  | cons b r ih => exact ih (State.setDramByte_memOk h pa b) _

/-- A byte of DRAM after a byte is written. -/
theorem State.dramByte_setDramByte (s : State) (pa j : Nat) (b : Byte) :
    (s.setDramByte pa b).dramByte j = if j = pa then b else s.dramByte j := by
  simp only [State.dramByte, State.setDramByte, State.quadMask, Memory.read_write]
  split
  · rename_i e; subst e; rw [BitVec.xor_assoc]; simp
  · rfl

/-- A byte of DRAM after bytes are written. -/
theorem State.dramByte_setDram (s : State) (pa j : Nat) (bs : List Byte) :
    (s.setDram pa bs).dramByte j = if pa ≤ j ∧ j < pa + bs.length then bs.getD (j - pa) 0 else s.dramByte j := by
  induction bs generalizing s pa with
  | nil => simp only [State.setDram, List.length_nil]; rw [if_neg (by omega)]
  | cons b r ih =>
    simp only [State.setDram, ih, State.dramByte_setDramByte, List.length_cons]
    by_cases h1 : pa + 1 ≤ j ∧ j < pa + 1 + r.length
    · rw [if_pos h1, if_pos (by omega)]
      have e : j - pa = (j - (pa + 1)) + 1 := by omega
      rw [e, List.getD_cons_succ]
    · rw [if_neg h1]
      by_cases h2 : j = pa
      · subst h2; rw [if_pos rfl, if_pos (by omega)]; simp
      · rw [if_neg h2, if_neg (by omega)]

/-! ### L2 lines -/

theorem State.writeBack_memOk {s : State} (h : s.memOk) (ln : Nat) : (s.writeBack ln).memOk := by
  unfold State.writeBack
  split
  · split
    · refine State.memOk_of_mem (s := if s.vaultLost (ln * 128) then s else s.setDram (ln * 128) _) ?_ rfl
      split
      · exact h
      · exact State.setDram_memOk h _ _
    · exact h
  · exact h

theorem State.evictLine_memOk {s : State} (h : s.memOk) (ln : Nat) : (s.evictLine ln).memOk :=
  State.memOk_of_mem (State.writeBack_memOk h ln) rfl

theorem State.makeRoom_memOk {s : State} (h : s.memOk) (sl ln : Nat) : (s.makeRoom sl ln).memOk := by
  unfold State.makeRoom
  simp only
  split
  · exact h
  · exact State.memOk_of_mem (State.evictLine_memOk h _) rfl

theorem State.fillLine_memOk {s : State} (h : s.memOk) (ln : Nat) : (s.fillLine ln).memOk := by
  unfold State.fillLine
  split
  · exact h
  · exact State.memOk_of_mem (State.makeRoom_memOk h _ _) rfl

/-! ### Accesses at their ordering point -/

@[simp] theorem State.countRemote_mem (s : State) (pa n : Nat) (w : Bool) : (s.countRemote pa n w).mem = s.mem := by
  unfold State.countRemote; split <;> rfl
@[simp] theorem State.noteUncached_mem (s : State) (pa : Nat) (u : Bool) : (s.noteUncached pa u).mem = s.mem := by
  unfold State.noteUncached; simp only; split <;> rfl
@[simp] theorem State.staleMark_mem (s : State) (pa : Nat) : (s.staleMark pa).mem = s.mem := rfl
@[simp] theorem State.leaveCopy_mem (s : State) (pa n : Nat) : (s.leaveCopy pa n).mem = s.mem := by
  unfold State.leaveCopy; simp only; split
  · split <;> rfl
  · rfl

theorem State.touchHome_memOk {s : State} (h : s.memOk) (pa : Nat) (unc : Bool) (n : Nat) : (s.touchHome pa unc n).memOk := by
  unfold State.touchHome
  split
  · exact h
  · have h1 : ((s.countRemote pa (n / 4) false).noteUncached pa unc).memOk := State.memOk_of_mem h (by simp)
    simp only
    split
    · exact h1
    · exact State.memOk_of_mem (State.fillLine_memOk h1 _) (State.leaveCopy_mem _ _ _)

theorem State.placeBytes_memOk {s : State} (h : s.memOk) (pa p : Nat) (bs : List Byte) (unc : Bool) :
    (s.placeBytes pa p bs unc).memOk := by
  have h2 : (if unc = true then s else s.fillLine (p / 128)).memOk := by
    split
    · exact h
    · exact State.fillLine_memOk h _
  unfold State.placeBytes
  simp only
  split
  · exact State.memOk_of_mem h2 rfl
  · exact State.memOk_of_mem (State.setDram_memOk h2 _ _) rfl

theorem State.writeHome_memOk {s : State} (h : s.memOk) (pa : Nat) (bs : List Byte) (unc : Bool) (n : Nat) :
    (s.writeHome pa bs unc n).memOk := by
  have h1 : (((s.countRemote pa n true).noteUncached pa unc).staleMark pa).memOk := State.memOk_of_mem h (by simp)
  unfold State.writeHome
  split
  · exact h
  · split
    · exact State.memOk_of_mem (State.setDram_memOk h pa bs) rfl
    · split
      · exact h
      · simp only
        split
        · exact State.placeBytes_memOk h1 _ _ _ _
        · exact List.foldlRecOn (motive := State.memOk) _ _ h1 (fun _ h _ _ => State.placeBytes_memOk h _ _ _ _)

theorem State.poisonHome_mem (s : State) (pa n o : Nat) : (s.poisonHome pa n o).mem = s.mem := by
  have key : ∀ (gs : List Nat) (s : State), (gs.foldl (fun (s : State) g =>
      match Sparse.get? s.lines (g / 8) with
      | some l =>
        { s with lines := Sparse.set s.lines (g / 8) { l with poison := Sparse.set l.poison g o, dirty := true } }
      | none => { s with poison := Sparse.set s.poison g o }) s).mem = s.mem := by
    intro gs
    induction gs with
    | nil => exact fun _ => rfl
    | cons g r ih => intro s; rw [List.foldl_cons, ih]; split <;> rfl
  exact key _ s

/-! ### Scratchpads -/

/-- Writing a scratchpad keeps its canonical form and every other scratchpad. -/
theorem State.setScr_core (s : State) (c o k : Nat) (bs : List Byte) :
    ((s.setScr c o bs).core k).scratch = if k = c then Memory.writeN (s.core c).scratch o bs else (s.core k).scratch := by
  by_cases h : k = c
  · subst h; simp [State.setScr, State.modCore]
  · rw [if_neg h]; simp only [State.setScr, State.modCore]; rw [State.core_setCore_ne _ _ _ h]

theorem State.setScr_wf {s : State} (c o k : Nat) (bs : List Byte) (h : Memory.wf (s.core k).scratch = true) :
    Memory.wf ((s.setScr c o bs).core k).scratch = true := by
  rw [State.setScr_core]
  split
  · rename_i e; subst e; exact Memory.wf_writeN h _ _
  · exact h

end Sys2Proof.Machine
end

