-- ==== Sys2Proof/Laws/Values.lean ====
section
/-!
SUPPORT. The integer readings and narrowings of R145 and R148 in terms of bit vectors.
-/
namespace Sys2Proof.Machine

theorem widthOf_pos (f : Fields) : 0 < widthOf f := by unfold widthOf; split <;> decide

/-- Int(x, W, s) is the signed or the unsigned reading of the low W bits (R145). -/
theorem intOf_eq (x w : Nat) (s : Bool) (hw : 0 < w) :
    intOf x w s = if s then (BitVec.ofNat w x).toInt else ((BitVec.ofNat w x).toNat : Int) := by
  cases s with
  | false => simp [intOf]
  | true =>
    have h2 : 2 ^ w = 2 * 2 ^ (w - 1) := by rw [← Nat.pow_succ']; congr 1; omega
    simp only [intOf, true_and, if_true, BitVec.toInt_eq_toNat_cond, BitVec.toNat_ofNat]
    by_cases h : x % 2 ^ w ≥ 2 ^ (w - 1)
    · rw [if_pos h, if_neg (by omega)]; simp
    · rw [if_neg h, if_pos (by omega)]

/-- y mod 2^W as a bit vector (R148). -/
theorem ofNat_wrapTo (y : Int) (w : Nat) : BitVec.ofNat w (wrapTo y w) = BitVec.ofInt w y := by
  apply BitVec.eq_of_toNat_eq
  have h : (0 : Int) < 2 ^ w := Int.pow_pos (by decide)
  have hm : y % 2 ^ w < 2 ^ w := Int.emod_lt_of_pos _ h
  have h0 : 0 ≤ y % 2 ^ w := Int.emod_nonneg _ (by omega)
  simp only [BitVec.toNat_ofNat, wrapTo, BitVec.toNat_ofInt]
  rw [Nat.mod_eq_of_lt]
  · norm_cast
  · have : ((y % 2 ^ w).toNat : Int) < ((2 ^ w : Nat) : Int) := by rw [Int.toNat_of_nonneg h0]; push_cast; exact hm
    exact_mod_cast this

theorem clampTo_eq (y : Int) (w : Nat) (s : Bool) :
    clampTo y w s = if s then min (max y (-(2 ^ (w - 1)))) (2 ^ (w - 1) - 1) else min (max y 0) (2 ^ w - 1) := rfl

end Sys2Proof.Machine
end

