-- ==== Sys2Proof/Tests/Slice0.lean ====
section
/-!
SUPPORT. Tests: what `Instr.check` refuses, words decoded as the manual encodes them, results that the manual works out, and for every
statement with hypotheses states that meet them.
-/
open Sys2Proof Sys2Proof.Machine
namespace Sys2Proof.Tests

/-! ### Terms that stand for no step (one for each check) -/

/-- Fields of zeros. -/
def f0 : Fields :=
  { fn := 0, gn := false, gp := 0, la := 0, hold := .none, bh := .pred, d := 0, a := ⟨.v, 0⟩, b := ⟨.v, 0⟩, x := 0, imm := 0 }
theorem test_ill_assignedOpcode : (Instr.unassignedOpcode 0x01 f0).check = some .assignedOpcode := by decide
theorem test_ill_noSuchCore : (Instr.mmaStart 64).check = some .noSuchCore := by decide
theorem test_ill_noSuchSite : (Instr.replicationWindow 16).check = some .noSuchSite := by decide
theorem test_ill_noSuchBlockSlot : (Instr.blockEnd 0 64).check = some .noSuchBlockSlot := by decide
theorem test_ill_noSuchThread : (Instr.sleepWake 3072).check = some .noSuchThread := by decide
theorem test_ill_noSuchSlice : (Instr.sliceCycle 0 6).check = some .noSuchSlice := by decide
theorem test_ill_noSuchL2Slice : (Instr.sliceFence 0 16 []).check = some .noSuchL2Slice := by decide
theorem test_ill_noSuchEngine : (Instr.cpLoad 0 2).check = some .noSuchEngine := by decide
theorem test_ill_noSuchUnit : (Instr.nmuFill 0 4).check = some .noSuchUnit := by decide
theorem test_ill_noSuchVault : (Instr.pseudoChannelFailure 0 4).check = some .noSuchVault := by decide
theorem test_ill_noSuchQueue : (Instr.launchBegin 8192).check = some .noSuchQueue := by decide
theorem test_ill_noSuchControlPort : (Instr.controlPortRegisterRead 2 0).check = some .noSuchControlPort := by decide
theorem test_ill_noSuchScaleUpPort : (Instr.scaleUpPortTimeout 18).check = some .noSuchScaleUpPort := by decide
theorem test_ill_noSuchScaleOutPort : (Instr.rdmaRead 4 0 0 0).check = some .noSuchScaleOutPort := by decide
theorem test_ill_noSuchDevice : (Instr.roundValueReceived 1024 ⟨0, none⟩).check = some .noSuchDevice := by decide
theorem test_ill_noSuchAsid : (Instr.asidTeardown 4096).check = some .noSuchAsid := by decide
theorem test_ill_noSuchDomain : (Instr.slhashWrite 0 2 0).check = some .noSuchDomain := by decide
theorem test_ill_noSuchControlRegister : (Instr.controlRegisterWrite 0 0 4096 0).check = some .noSuchControlRegister := by decide
theorem test_ill_noSuchGraph : (Instr.graphUpload 0 65536 []).check = some .noSuchGraph := by decide
theorem test_ill_noSuchSegment : (Instr.flitCrcError (.hem 16) true).check = some .noSuchSegment := by decide
theorem test_ill_noSuchMesh : (Instr.flitCrcError (.mesh 0 2 0) true).check = some .noSuchMesh := by decide
theorem test_ill_noSuchLink : (Instr.flitCrcError (.mesh 0 1 24) true).check = some .noSuchLink := by decide
theorem test_ill_wrongLength : (Instr.attestation []).check = some .wrongLength := by decide
theorem test_wf_lastThread : (Instr.sleepWake 3071).check = none := by decide

/-! ### Decoding -/

/-- The instruction of a word given as its three 32-bit words at +8, +4 and +0. -/
def word (hi mid lo : Nat) : Option Instr := decodeTableWord 96 (hi * 2 ^ 64 + mid * 2 ^ 32 + lo)
/-- The opcode of the word whose opcode byte is `base + k`, whatever its fields. -/
def opAt (base k : Nat) : Option Op := (decodeTableWord 96 ((base + k) * 2 ^ 88 + 0x123456789ABCDEF)).bind Instr.op?

/-- Table 6.14. -/
theorem test_opcodes_class_000 : (List.range 32).map (opAt 0) =
    [some .nop, some .iadd, some .isub, some .imul, some .imulhi, some .imad, some .imin, some .imax,
      some .iabs, some .lea, some .icmp, some .sel, some .and, some .or, some .xor, some .andn,
      some .shl, some .shr, some .sha, some .shf, some .bfx, some .bfi, some .popc, some .clz,
      some .brev, some .perm, some .plop, some .mov, some .movsr, some .ldkx, some .isad, some .imulw] := by decide

/-- Table 6.15. -/
theorem test_opcodes_class_001 : (List.range 32).map (opAt 32) =
    [some .fadd, some .fsub, some .fmul, some .ffma, some .fmin, some .fmax, some .fabs, some .fneg,
      some .fcmp, some .fset, some .fclass, some .frnd, some .fdiv, some .fsqrt, some .frcp, some .frsq,
      some .fexp2, some .flog2, some .fsinpi, some .fcospi, some .fscl, some .fcpys, some .fgete, some .fgetm,
      some .fsat, none, none, none, none, none, none, none] := by decide

/-- Table 6.16. -/
theorem test_opcodes_class_010 : (List.range 32).map (opAt 64) =
    [some .hadd2, some .hsub2, some .hmul2, some .hfma2, some .hmin2, some .hmax2, some .hcmp2, some .hdot2,
      some .cvtf, some .cvtfi, some .cvtif, some .cvtf8, some .cvt8f, some .pk8, some .unpk8, some .pk16,
      some .unpk16, some .cvtsf8, some .habs2, some .hclass2, some .ipk16, some .idot4, some .iadd2, some .imin2,
      some .imax2, none, none, none, none, none, none, none] := by decide

/-- Table 6.17. -/
theorem test_opcodes_class_011 : (List.range 32).map (opAt 96) =
    [some .bra, some .jmpi, some .call, some .calli, some .ret, some .exit, some .yield, some .sleep,
      some .skjoin, some .skleave, some .bar, some .vote, some .ballot, some .shfl, some .skred, some .skmatch,
      some .flags, some .binit, some .bexpect, some .barrive, some .bwait, some .btest, some .seamset, some .seamsign,
      some .seamwait, some .seamtest, some .stwait, none, none, none, none, none] := by decide

/-- Table 6.18. -/
theorem test_opcodes_class_100 : (List.range 32).map (opAt 128) =
    [some .gld, some .gst, some .sld, some .sst, some .lld, some .lst, some .pref, none,
      some .gamo, some .gred, some .samo, some .sred, some .gcas, some .scas, none, none,
      some .fence, some .mark, some .cctl, none, none, none, none, none,
      none, none, none, none, none, none, none, none] := by decide

/-- Table 6.19. -/
theorem test_opcodes_class_101 : (List.range 32).map (opAt 160) =
    [some .mma, some .accz, some .accld, some .accst, some .rsalloc, some .rsfill, some .rssrc, some .rspin,
      some .rsunpin, some .rsrevoke, some .rsquery, some .accadd, some .accmov, none, none, none,
      none, none, none, none, none, none, none, none,
      none, none, none, none, none, none, none, none] := by decide

/-- Table 6.19. -/
theorem test_opcodes_class_110 : (List.range 32).map (opAt 192) =
    [some .push, some .trap, some .brk, some .tret, some .crrd, some .crwr, some .cntrd, none,
      none, none, none, none, none, none, none, none,
      none, none, none, none, none, none, none, none,
      none, none, none, none, none, none, none, none] := by decide

/-- Class 111 is reserved, and every unassigned byte keeps its word (R130). -/
theorem test_opcodes_class_111 : (List.range 32).map (opAt 0xE0) = List.replicate 32 none := by decide
theorem test_word_unassigned : word 0xE1000000 0 0x2A = some (.unassignedOpcode 0xE1 { f0 with imm := 0x2A }) := by decide
/-- R112: fewer than twelve bytes are no word. -/
theorem test_decode_truncated : decode (List.replicate 11 0) = .error .truncated := rfl

/-- Table 7.3. -/
theorem test_words_class_000 :
    word 0x0A440000 0x20170000 0x64 = some (.icmp { f0 with fn := 0x44, d := 2, a := ⟨.v, 5⟩, b := ⟨.imm, 0⟩, imm := 0x64 }) ∧
    word 0x0B000000 0x6017000A 0x64 = some (.sel { f0 with d := 6, a := ⟨.v, 5⟩, b := ⟨.imm, 0⟩, x := 0x0A, imm := 0x64 }) ∧
    word 0x01140000 0x701D0300 0 = some (.iadd { f0 with fn := 0x14, d := 7, a := ⟨.v, 7⟩, b := ⟨.k, 3⟩ }) ∧
    word 0x09000000 0x24000002 0 = some (.lea { f0 with d := 2, a := ⟨.k, 0⟩, x := 2 }) := by decide
/-- Table 8.10 and its neighbours. -/
theorem test_words_class_001 :
    word 0x23440000 0x80240A08 0 = some (.ffma { f0 with fn := 0x44, d := 8, a := ⟨.v, 9⟩, b := ⟨.v, 10⟩, x := 8 }) ∧
    word 0x2C800400 0x30110200 0 = some (.fdiv { f0 with fn := 0x80, la := 4, d := 3, a := ⟨.v, 4⟩, b := ⟨.k, 2⟩ }) := by decide
theorem test_words_class_010 :
    word 0x4B300000 0x5018000C 0 = some (.cvtf8 { f0 with fn := 0x30, d := 5, a := ⟨.v, 6⟩, x := 0x0C }) ∧
    word 0x43280000 0x200C0402 0 = some (.hfma2 { f0 with fn := 0x28, d := 2, a := ⟨.v, 3⟩, b := ⟨.v, 4⟩, x := 2 }) := by decide
theorem test_words_class_011 :
    word 0x6A030000 0 0 = some (.bar { f0 with fn := 3 }) ∧
    word 0x74400000 0x00100001 0x800 = some (.bwait { f0 with fn := 0x40, a := ⟨.v, 4⟩, x := 1, imm := 0x800 }) ∧
    word 0x6E020500 0x90080009 0 = some (.skred { f0 with fn := 2, la := 5, d := 9, a := ⟨.v, 2⟩, x := 9 }) ∧
    word 0x7800B000 0x08040000 0 = some (.seamwait { f0 with gn := true, gp := 3, a := ⟨.alt, 1⟩ }) := by decide
theorem test_words_class_100 :
    word 0x81730000 0x00200C00 0x100 = some (.gst { f0 with fn := 0x73, a := ⟨.v, 8⟩, b := ⟨.v, 12⟩, imm := 0x100 }) ∧
    word 0x888A0600 0x50100909 0 = some (.gamo { f0 with fn := 0x8A, la := 6, d := 5, a := ⟨.v, 4⟩, b := ⟨.v, 9⟩, x := 9 }) ∧
    word 0x8D4A0000 0x30280405 0x40 = some (.scas { f0 with fn := 0x4A, d := 3, a := ⟨.v, 10⟩, b := ⟨.v, 4⟩, x := 5, imm := 0x40 }) ∧
    word 0x92100000 0x00300802 0 = some (.cctl { f0 with fn := 0x10, a := ⟨.v, 12⟩, b := ⟨.v, 8⟩, x := 2 }) := by decide
theorem test_words_class_101 :
    word 0xA0600000 0x38080C00 0x7F = some (.mma { f0 with fn := 0x60, d := 3, a := ⟨.alt, 2⟩, b := ⟨.v, 12⟩, imm := 0x7F }) ∧
    word 0xA5000000 0x0028080C 0x800 = some (.rsfill { f0 with a := ⟨.v, 10⟩, b := ⟨.v, 8⟩, x := 0x0C, imm := 0x800 }) ∧
    word 0xA3000000 0x20180020 0x300 = some (.accst { f0 with d := 2, a := ⟨.v, 6⟩, x := 0x20, imm := 0x300 }) ∧
    word 0xA4000000 0x8C000000 4 = some (.rsalloc { f0 with d := 8, a := ⟨.imm, 0⟩, imm := 4 }) := by decide
theorem test_words_class_110 :
    word 0xC0000000 0x50400000 0 = some (.push { f0 with d := 5, a := ⟨.v, 16⟩ }) ∧
    word 0xC5000000 0x00280000 0x10 = some (.crwr { f0 with a := ⟨.v, 10⟩, imm := 0x10 }) ∧
    word 0xC4000000 0x20000000 0x11 = some (.crrd { f0 with d := 2, imm := 0x11 }) ∧
    word 0xC3000000 0 0 = some (.tret f0) := by decide

/-! ### Results that the manual works out -/

/-- The helper thread with some registers. -/
def thr (v : Sparse Word) : Thread := { helperThread with v := v }
/-- The stitch of the helper thread. -/
def z0 : Issue := ⟨0, 0, 0, 0, 0, .user, [0]⟩
/-- The state in which a thread of the helper block is about to execute an instruction. -/
def st (t : Thread) (b : Block) : State :=
  { State.reset with threads := [(0, t)], blocks := [(0, b)], cur := z0 }
/-- The state in which the helper thread is about to execute an instruction. -/
def s0 (t : Thread) : State := st t (helperBlock 0)
/-- The thread after an instruction that retires. -/
def after (i : Instr) (v : Sparse Word) : Option Thread :=
  match exec i (s0 (thr v)) with | .next t => t.thread? 0 | _ => none
/-- A register after it. -/
def reg (i : Instr) (v : Sparse Word) (r : Nat) : Option Word := (after i v).map (·.reg r)
/-- Fields with destination v2 and sources v4, v6 and v8. -/
def f1 : Fields := { f0 with d := 2, a := ⟨.v, 4⟩, b := ⟨.v, 6⟩, x := 8 }

/-- Table 7.4. -/
theorem test_iadd_sat_n32 : reg (.iadd { f1 with x := 0, fn := 0x10 }) [(4, 0xFFFFFFF0), (6, 0x20)] 2 = some 0xFFFFFFFF := by decide
theorem test_iadd_sat_i32 : reg (.iadd { f1 with x := 0, fn := 0x14 }) [(4, 0x7FFFFFF0), (6, 0x20)] 2 = some 0x7FFFFFFF := by decide
theorem test_imulhi_i32 : reg (.imulhi { f1 with x := 0, fn := 0x04 }) [(4, 0xFFFFFFFE), (6, 3)] 2 = some 0xFFFFFFFF := by decide
theorem test_imulhi_n32 : reg (.imulhi { f1 with x := 0 }) [(4, 0xFFFFFFFE), (6, 3)] 2 = some 2 := by decide
theorem test_sha_by_40 : reg (.sha { f1 with x := 0 }) [(4, 0x80000010), (6, 40)] 2 = some 0xFFFFFFFF := by decide
theorem test_shf : reg (.shf f1) [(4, 0x89ABCDEF), (6, 0x01234567), (8, 8)] 2 = some 0x6789ABCD := by decide
theorem test_bfx_i32 : reg (.bfx { f1 with x := 0, fn := 0x04 }) [(4, 0x0F80), (6, 0x0804)] 2 = some 0xFFFFFFF8 := by decide
theorem test_bfi_n32 : reg (.bfi f1) [(4, 0xAB), (6, 0x0810), (8, 0x11223344)] 2 = some 0x11AB3344 := by decide
theorem test_perm : reg (.perm f1) [(4, 0x44332211), (6, 0x88776655), (8, 0xF170)] 2 = some 0xFF228811 := by decide
/-- R113: the PC goes to PC + 12. -/
theorem test_nop_pc : (after (.nop f0) []).map (·.pc) = some 12 := by decide
/-- R116: a 64-bit result lies in a pair, low word first. -/
theorem test_imulw_high : reg (.imulw { f1 with x := 0 }) [(4, 0xFFFFFFFF), (6, 0xFFFFFFFF)] 3 = some 0xFFFFFFFE := by decide
/-- Table 22.3. -/
theorem test_rejected_release_on_load : (wordTrap .gld { f0 with fn := 0x6A, d := 7, a := ⟨.v, 2⟩, imm := 0x40 } helperThread (helperBlock 0)) =
    some ⟨0x01, 0x6A, 0x8011⟩ := by decide
theorem test_rejected_odd_pair : (wordTrap .gld { f0 with fn := 0x03, d := 7, a := ⟨.v, 2⟩ } helperThread (helperBlock 0)) =
    some ⟨0x01, 0x07, 0x8024⟩ := by decide
/-- Table 8.5. -/
theorem test_fadd_ru : reg (.fadd { f1 with x := 0, fn := 0x80 }) [(4, 0x3F800000), (6, 0x33800000)] 2 = some 0x3F800001 := by decide
theorem test_fadd_rn_tie : reg (.fadd { f1 with x := 0 }) [(4, 0x3F800000), (6, 0x33800000)] 2 = some 0x3F800000 := by decide
theorem test_fmul_rz : reg (.fmul { f1 with x := 0, fn := 0x40 }) [(4, 0x7F7FFFFF), (6, 0x40000000)] 2 = some 0x7F7FFFFF := by decide
theorem test_hadd2 : reg (.hadd2 { f1 with x := 0, fn := 0x14 }) [(4, 0x7BFF3C00), (6, 0x7BFF3C00)] 2 = some 0x7C004000 := by decide
theorem test_pk16_bf16 : reg (.pk16 { f1 with x := 0, fn := 0x20 }) [(4, 0x3F800000), (6, 0xC0000000)] 2 = some 0xC0003F80 := by decide
/-- R5, R112, R311: the instruction at the PC (MOV v2, 0xAB) is the one that a step runs. -/
theorem test_step_runs_word : (match step (State.reset.withFetchWord 96 0x1B0000002C000000000000AB) with
    | .next t => (t.thread? 0).map (fun u => (u.pc, u.reg 2)) | _ => none) = some (12, 0xAB) := by decide

/-! ### The hypotheses of the statements can be met -/

/-- The helper block as a block of ASID 5. -/
def b5 : Block := { helperBlock 0 with asid := 5 }
/-- A thread executes an instruction in `st`. -/
theorem executes (op : Op) (f : Fields) (t : Thread) (b : Block)
    (h : t.exited = false ∧ nextTrap t = none ∧ t.spec = none ∧ t.pcTop = 0 ∧ guardOf t f = true ∧ wordTrap op f t b = none) :
    Executes op f (st t b) 0 t b :=
  ⟨⟨rfl, rfl, rfl, h.1, h.2.1, h.2.2.1, h.2.2.2.1⟩, h.2.2.2.2.1, h.2.2.2.2.2⟩
/-- The same for several instructions with one value of the fields. -/
def allExecute (ops : List Op) (f : Fields) (t : Thread) : Prop := ∀ op ∈ ops, Executes op f (s0 t) 0 t (helperBlock 0)
theorem all_execute {ops : List Op} {f : Fields} {t : Thread}
    (h : t.exited = false ∧ nextTrap t = none ∧ t.spec = none ∧ t.pcTop = 0 ∧ guardOf t f = true ∧
      ∀ op ∈ ops, wordTrap op f t (helperBlock 0) = none) : allExecute ops f t :=
  fun op ho => executes op f t _ ⟨h.1, h.2.1, h.2.2.1, h.2.2.2.1, h.2.2.2.2.1, h.2.2.2.2.2 op ho⟩
/-- Fields with sources v4 and v6 and a zero X. -/
def f2 : Fields := { f1 with x := 0 }

theorem wit_DecodeAndEncodeAgree : (Instr.iadd f2).wf = true ∧ encodeWord (.iadd f2) = some (wordOf 0x01 f2) ∧
    (Instr.unassignedOpcode 0xFF f1).wf = true := by decide
theorem wit_IntegerArithmetic : allExecute [.iadd, .isub, .imul, .imulhi, .imin, .imax, .imulw, .lea] f2 helperThread ∧
    allExecute [.imad, .isad] f1 helperThread ∧ allExecute [.iabs] { f2 with b := ⟨.v, 0⟩, fn := 4 } helperThread :=
  ⟨all_execute (by decide), all_execute (by decide), all_execute (by decide)⟩
theorem wit_ComparesAndSelects : (∀ k : Fin 6, allExecute [.icmp] { f2 with fn := BitVec.ofNat 8 (32 * k.val) } helperThread ∧
      ({ f2 with fn := BitVec.ofNat 8 (32 * k.val) } : Fields).top3 = k.val) ∧
    allExecute [.sel] f1 helperThread ∧ allExecute [.plop] { f2 with a := ⟨.alt, 4⟩, b := ⟨.alt, 6⟩, imm := 0xC0 } helperThread := by
  refine ⟨fun k => ?_, all_execute (by decide), all_execute (by decide)⟩
  refine ⟨all_execute ?_, ?_⟩ <;> revert k <;> decide
theorem wit_LogicShiftsAndBitFields : allExecute [.and, .or, .xor, .andn, .shl, .shr, .sha, .bfx] f2 helperThread ∧
    allExecute [.shf, .bfi, .perm] f1 helperThread ∧ allExecute [.popc, .clz, .brev] { f2 with b := ⟨.v, 0⟩ } helperThread :=
  ⟨all_execute (by decide), all_execute (by decide), all_execute (by decide)⟩
/-- A MOV of DF 01 is for trap mode. -/
theorem wit_MovesAndConstants : allExecute [.mov] { f2 with b := ⟨.v, 0⟩ } helperThread ∧
    allExecute [.mov] { f2 with b := ⟨.v, 0⟩, fn := 1 } { helperThread with mode := .trap } ∧
    allExecute [.mov] { f2 with b := ⟨.v, 0⟩, fn := 2 } helperThread ∧
    allExecute [.ldkx] { f1 with b := ⟨.v, 0⟩, a := ⟨.k, 63⟩ } helperThread ∧
    (∀ n : Fin 15, allExecute [.movsr] { f2 with b := ⟨.v, 0⟩, a := ⟨.alt, BitVec.ofNat 8 n.val⟩ } helperThread) :=
  ⟨all_execute (by decide), all_execute (by decide), all_execute (by decide), all_execute (by decide),
    fun n => all_execute (by revert n; decide)⟩
/-- The conversion forms with their format codes. -/
theorem wit_FloatResultsAreDelivered : allExecute [.fadd, .fsub, .fmul, .fscl] f2 helperThread ∧ allExecute [.ffma] f1 helperThread ∧
    allExecute [.frnd, .fgete, .fgetm] { f2 with b := ⟨.v, 0⟩ } helperThread ∧
    allExecute [.hadd2, .hsub2, .hmul2] { f2 with fn := 0x14 } helperThread ∧ allExecute [.hfma2] { f1 with fn := 0x14 } helperThread ∧
    allExecute [.hdot2] { f1 with fn := 0x14 } helperThread ∧
    allExecute [.cvtf] { f2 with b := ⟨.v, 0⟩, fn := 0x10 } helperThread ∧
    allExecute [.cvtif, .cvtfi] { f2 with b := ⟨.v, 0⟩ } helperThread ∧
    allExecute [.cvtf8] { f2 with b := ⟨.v, 0⟩, fn := 0x30, x := 0x0C } helperThread ∧
    allExecute [.cvt8f, .unpk8] { f2 with b := ⟨.v, 0⟩, fn := 0x0C, x := 0x0C } helperThread ∧
    allExecute [.pk8, .cvtsf8] { f2 with fn := 0x30, x := 0x0C } helperThread ∧ allExecute [.pk16] { f2 with fn := 0x20 } helperThread ∧
    allExecute [.unpk16] { f2 with b := ⟨.v, 0⟩, fn := 0x08 } helperThread := by
  refine ⟨?_, ?_, ?_, ?_, ?_, ?_, ?_, ?_, ?_, ?_, ?_, ?_, ?_⟩ <;> exact all_execute (by decide)
theorem wit_FloatArithmeticRoundsOnce : fp32.finite 0x7F7FFFFF = true ∧ fp32.finite 0x80000001 = true ∧ fp32.finite 0x7F800000 = false ∧
    (0x7F7FFFFF : Nat) < 2 ^ 32 := by decide
theorem wit_FloatNaNsCodesAndParts : fp32.nan 0x7F800001 = true ∧ fp32.nan 0xFFFFFFFF = true ∧ fp32.signalling 0x7F800001 = true ∧
    (0x7F800000 % 2 ^ 31 = 0x7F800000 ∧ fp32.negative 0x7F800000 ≠ fp32.negative 0xFF800000) ∧
    fp32.finite 0x00000001 = true ∧
    allExecute [.fmin, .fmax, .fcpys] f2 helperThread ∧ allExecute [.fcmp, .fset] f2 helperThread ∧
    allExecute [.fabs, .fneg, .fsat, .fclass] { f2 with b := ⟨.v, 0⟩ } helperThread :=
  ⟨by decide, by decide, by decide, by decide, by decide, all_execute (by decide), all_execute (by decide), all_execute (by decide)⟩
theorem wit_FunctionsQuotientsAndRoots : allExecute [.fdiv] { f2 with la := 15 } helperThread ∧
    allExecute [.frcp, .fsqrt, .frsq, .fexp2, .flog2, .fsinpi, .fcospi] { f2 with la := 15, b := ⟨.v, 0⟩ } helperThread ∧
    (RM.of 1 = .rz ∧ RM.of 2 = .ru ∧ RM.of 3 = .rd) ∧ fp32.finite 0x00000001 = true :=
  ⟨all_execute (by decide), all_execute (by decide), by decide, by decide⟩
theorem wit_PackedHalvesAndIntegers : ({ f2 with fn := 0x14 } : Fields).dt = 1 ∧ ({ f2 with fn := 0x28 } : Fields).dt = 2 ∧
    (fmtOf 1).finite 0x7BFF = true ∧ (fmtOf 2).finite 0x7F7F = true ∧
    allExecute [.hmin2, .hmax2, .hcmp2] { f2 with fn := 0x14 } helperThread ∧
    allExecute [.habs2] { f2 with b := ⟨.v, 0⟩, fn := 0x14 } helperThread ∧
    allExecute [.hclass2] { f2 with b := ⟨.v, 0⟩, fn := 0x14 } helperThread ∧
    allExecute [.iadd2, .imin2, .imax2, .ipk16] f2 helperThread ∧ allExecute [.idot4] f1 helperThread :=
  ⟨by decide, by decide, by decide, by decide, all_execute (by decide), all_execute (by decide), all_execute (by decide),
    all_execute (by decide), all_execute (by decide)⟩
theorem wit_ConversionsRoundOnce : fmtBad 0x00 = false ∧ fmtBad 0x1B = false ∧ b8Finite 0x0C 0x5D = true ∧
    b8Finite b8Scale 0x43 = true ∧ (match b8Value b8Scale 0x43 with | .fin _ m _ => decide (0 < m) | _ => false) = true ∧ (fmtOf 1).finite 0x7BFF = true ∧ ({ f2 with fn := 0x20 } : Fields).dt = 2 := by decide
/-- Words whose guard is true, false, and an unguarded jump; the target is register v4 with v5 as its high half. -/
theorem wit_JumpsCallsAndTheirGuards :
    Executes .bra f0 (s0 helperThread) 0 helperThread (helperBlock 0) ∧ guardOf helperThread { f0 with gn := true } = false ∧
    allExecute [.jmpi, .calli] { f0 with a := ⟨.v, 4⟩ } (thr [(4, 0xFFFFFFFC), (5, 0x00FFFFFF)]) ∧
    opndA .jmpi (thr [(4, 0xFFFFFFFC), (5, 0x00FFFFFF)]) (helperBlock 0) { f0 with a := ⟨.v, 4⟩ } = 2 ^ 56 - 4 ∧
    allExecute [.call] f0 { helperThread with depth := 7 } ∧
    allExecute [.ret] f0 { helperThread with depth := 8 } ∧ allExecute [.ret] f0 { helperThread with depth := 1 } ∧
    allExecute [.jmpi, .calli] { f0 with gp := 1, gn := true, a := ⟨.v, 4⟩ } (thr [(4, 0xFFFFFFFC), (5, 0x00FFFFFF)]) ∧
    allExecute [.call, .ret] { f0 with gp := 1, gn := true } { helperThread with depth := 1 } := by
  refine ⟨executes _ _ _ _ (by decide), by decide, all_execute (by decide), by decide, ?_, ?_, ?_, ?_, ?_⟩ <;> exact all_execute (by decide)
/-- A branch under a false guard with each hint, a branch that is still to resolve, and threads on its path. -/
theorem wit_BranchesAndTheirResolution :
    (∀ bh ∈ [Hint.pred, .unif, .wait, .rsvd], Alone (s0 helperThread) 0 helperThread (helperBlock 0) ∧ (s0 helperThread).cur.pc = helperThread.pc ∧
      guardOf helperThread { f0 with gp := 1, bh := bh } = false) ∧
    (∃ s : State, ∃ br : Branch, s.branches.find? (fun b => b.id = 3) = some br ∧ br.pred = none ∧ br.mask ≠ 0) ∧
    ∃ s : State, ∃ br : Branch, ∃ t : Thread, ∃ p : SpecPath, s.branches.find? (fun b => b.id = 3) = some br ∧ br.pred = some 1 ∧
      br.members = [(0, 24, true)] ∧ s.thread? 0 = some t ∧ t.spec = some p ∧ p.branch = 3 ∧ p.taken = true ∧ p.trap = none ∧
      Sparse.get? s.ckpts 0 = some helperThread :=
  ⟨fun bh _ => ⟨⟨rfl, rfl, rfl, rfl, rfl, rfl, rfl⟩, rfl, by cases bh <;> decide⟩,
    ⟨{ s0 helperThread with branches := [⟨3, 0, 0, 0, 0, 1, 1, none, 0, [(0, 24, true)], 0⟩] }, _, rfl, rfl, by decide⟩,
    ⟨{ s0 { helperThread with spec := some ⟨3, 0, true, [], none⟩ } with
      branches := [⟨3, 0, 0, 0, 0, 1, 1, some 1, 0, [(0, 24, true)], 0⟩], ckpts := [(0, helperThread)] }, _, _, _, rfl, rfl, rfl, rfl, rfl,
      rfl, rfl, rfl, rfl⟩⟩

/-- The same in a state with more in it. -/
theorem executesIn {op : Op} {f : Fields} {s : State} {t : Thread} {b : Block} (hs : s.cur.members = [0] ∧ s.thread? 0 = some t ∧
      s.block? 0 = some b)
    (h : t.exited = false ∧ nextTrap t = none ∧ t.spec = none ∧ t.pcTop = 0 ∧ guardOf t f = true ∧ wordTrap op f t b = none) :
    Executes op f s 0 t b :=
  ⟨⟨hs.1, hs.2.1, hs.2.2, h.1, h.2.1, h.2.2.1, h.2.2.2.1⟩, h.2.2.2.2.1, h.2.2.2.2.2⟩
/-- The first clause's instruction is a NOP, which zeros encode. -/
theorem wit_AStepRunsTheDecodedInstruction :
    (let s := State.reset.withFetchWord 96 0x000000002400000000000000
     s.held = false ∧ s.issueQ = [z0] ∧ s.liveMembers z0 = [0] ∧ s.thread? 0 = some helperThread ∧ s.block? 0 = some (helperBlock 0) ∧
      (0 : Nat) % 65536 + 12 ≤ 65536 ∧ s.tlbFind 0 0 0 = some (helperPage 0) ∧ (helperPage 0).x = true ∧ (helperBlock 0).asid = 0 ∧
      (∀ k, k < 12 → s.codePoison 0 ((helperPage 0).pa (0 + k)) = none) ∧
      (match decode ((List.range 12).map (fun k => s.codeByte 0 ((helperPage 0).pa (0 + k)))) with
        | .ok (_, []) => true | _ => false) = true) ∧
    (let s := { State.reset with agenda := [.sliceCycle 0 0] }
     s.held = false ∧ s.issueQ = [] ∧ s.agenda = [.sliceCycle 0 0]) ∧
    (State.reset.held = false ∧ State.reset.issueQ = [] ∧ State.reset.agenda = []) ∧
    (let s := { State.reset with held := true, agenda := [.startCommand false, .sliceCycle 0 0] }
     s.held = true ∧ s.agenda = .startCommand false :: [.sliceCycle 0 0]) := by
  refine ⟨⟨rfl, rfl, rfl, rfl, rfl, by decide, rfl, rfl, rfl, ?_, by decide⟩, ⟨rfl, rfl, rfl⟩, ⟨rfl, rfl, rfl⟩, rfl, rfl⟩
  decide
/-- A guard that is false on a word that is not a branch; a privileged word in user mode of ASID 5; a rejected word; a marked source. -/
theorem wit_GuardsAndRejections :
    Alone (st helperThread b5) 0 helperThread b5 ∧ guardOf helperThread { f2 with gp := 1 } = false ∧
    guardOf helperThread f2 = true ∧ helperThread.mode = .user ∧ b5.asid ≠ 0 ∧
    (rejection .gld 0x40 helperThread (helperBlock 0) { f0 with fn := 0x6A, d := 7, a := ⟨.v, 2⟩ }).isSome = true ∧
    (let t := { helperThread with marks := [(4, ⟨7, 1⟩)] }
     rejection .iadd 0x01 t (helperBlock 0) f2 = none ∧
      (regsRead .iadd (helperBlock 0).limits f2).find? (fun r => (Sparse.get? t.marks r).isSome) = some 4 ∧
      Sparse.get? t.marks 4 = some ⟨7, 1⟩) ∧ Op.ofCode 0xFF = none :=
  ⟨⟨rfl, rfl, rfl, rfl, rfl, rfl, rfl⟩, by decide, by decide, by decide, by decide, by decide, by decide, by decide⟩
/-- Threads of skein 0 in lanes of one slice: thread 1 is in lane 0 of slice 0 as thread 0 is, or in another lane. -/
def pairOf (t u : Thread) (k : Nat) : State := { s0 t with threads := [(0, t), (k, u)] }
theorem wit_SliceCycles :
    (let s := { State.reset with slices := [(0, { Slice.reset with failed := true })] }; (s.slice 0 0).failed = true) ∧
    (∀ n : Fin 8, let s := { State.reset with
        sites := [(0, { Site.reset with applied := 4 })], slices := [(0, { Slice.reset with cycle := n.val, owed := 1 })] }
      (s.slice 0 0).failed = false ∧ (s.core 0).fenced = false ∧ s.sliceThreads 0 0 = [] ∧ s.applied 0 = 4 ∧ 0 < (s.slice 0 0).owed) ∧
    (State.reset.slice 0 0).table = [] ∧ (State.reset.slice 0 0).cycle % 8 < 8 ∧
    (s0 helperThread).isReady 0 helperThread (helperBlock 0) = true ∧
    ((s0 helperThread).sliceThreads 0 0).map (·.1) = [0] ∧
    (let s := pairOf { helperThread with pc := 12 } helperThread 192
     (s.sliceThreads 0 0).map (fun c => (c.1, tkThr c.1 % 32, c.2.1.pc.toNat)) = [(0, 0, 12), (192, 0, 0)]) ∧
    (let s := pairOf helperThread helperThread 6
     (s.sliceThreads 0 0).map (fun c => (c.1, tkThr c.1 % 32, c.2.1.pc.toNat)) = [(0, 0, 0), (6, 6, 0)]) := by
  refine ⟨by decide, ?_, by decide, by decide, by decide, by decide, by decide, by decide⟩
  intro n; revert n; decide
theorem wit_EveryStepKeepsMemoryCanonical : State.reset.memOk ∧ step State.reset = .next State.reset.tick := ⟨rfl, rfl⟩
theorem wit_OnlyAStartChangesDevnoAndMeasure :
    exec (.sleepWake 5) State.reset = .next State.reset ∧ ∀ x, Instr.sleepWake 5 ≠ .coldStart x ∧ Instr.sleepWake 5 ≠ .warmStart x :=
  ⟨rfl, fun _ => ⟨nofun, nofun⟩⟩
/-- A thread in trap mode. -/
def trapper : Thread := { helperThread with mode := .trap, trapSkein := some 0 }
theorem wit_EndingAndWaiting : allExecute [.exit, .yield, .sleep] f0 helperThread ∧ allExecute [.sleep] { f0 with imm := 5 } helperThread ∧
    allExecute [.stwait] { f0 with imm := 3 } { helperThread with pst := 3 } ∧
    allExecute [.stwait] { f0 with imm := 3 } { helperThread with pst := 4 } ∧ ({ f0 with imm := 5 } : Fields).imm ≠ 0 :=
  ⟨all_execute (by decide), all_execute (by decide), all_execute (by decide), all_execute (by decide), by decide⟩
/-- Skein 3 with nobody expected, and with another thread expected since this cycle or since a later one. -/
theorem wit_SkeinsAndStickyFlags :
    allExecute [.skjoin, .skleave] { f0 with fn := 3 } trapper ∧
    allExecute [.skjoin, .skleave] { f0 with fn := 3 } { helperThread with skeins := 9 } ∧
    allExecute [.skjoin, .skleave] { f0 with fn := 3 } helperThread ∧
    (({ f0 with fn := 3 } : Fields).low4 = 3 ∧ (9#16).getLsbD 3 = true ∧ helperThread.skeins.getLsbD 3 = false) ∧
    (∀ n : Fin 2, let b := { helperBlock 0 with phases := [(3, { Phase.empty n.val with waiting := [1, 0] })] }
      Executes .skjoin { f0 with fn := 3 } (st helperThread b) 0 helperThread b ∧ (b.phaseOf (.skein 3)).waiting = [1, 0] ∧
      (b.phaseOf (.skein 3)).began = n.val) ∧
    (((helperBlock 0).phaseOf (.skein 3)).waiting = [] ∧ ((helperBlock 0).phaseOf (.skein 3)).arrived = []) ∧
    (∀ x : Fin 3, allExecute [.flags] { f0 with d := 2, a := ⟨.v, 4⟩, fn := 15, x := BitVec.ofNat 8 x.val } helperThread) := by
  refine ⟨all_execute (by decide), all_execute (by decide), all_execute (by decide), by decide, fun n => ?_, by decide, fun x => all_execute ?_⟩
  · exact ⟨executes _ _ _ _ (by revert n; decide), by revert n; decide, rfl⟩
  · revert x; decide
/-- The opcodes of barriers, each with fields that it admits. -/
def colls : List (Op × Fields) :=
  [(.bar, f0), (.vote, { f0 with d := 7, a := ⟨.v, 4⟩, x := 2 }), (.ballot, { f0 with d := 2, a := ⟨.v, 4⟩ }),
   (.shfl, { f0 with d := 2, a := ⟨.v, 4⟩, b := ⟨.v, 6⟩, x := 3 }), (.skred, { f0 with d := 2, a := ⟨.v, 4⟩, x := 11 }),
   (.skmatch, { f0 with d := 2, a := ⟨.v, 4⟩ })]
/-- Each executes, in user mode inside and outside its skein and in trap mode. -/
theorem colls_execute (t : Thread) (b : Block) (h : t.exited = false ∧ nextTrap t = none ∧ t.spec = none ∧ t.pcTop = 0 ∧
      ∀ c ∈ colls, guardOf t c.2 = true ∧ wordTrap c.1 c.2 t b = none) : ∀ c ∈ colls, Executes c.1 c.2 (st t b) 0 t b :=
  fun c hc => executes _ _ _ _ ⟨h.1, h.2.1, h.2.2.1, h.2.2.2.1, h.2.2.2.2 c hc⟩
/-- Phases of skein 0: with a mate and none or a like fixing arrival; left before; mixed; the last of two threads. -/
def phased (p : Phase) : Block := { helperBlock 0 with phases := [(0, p)] }
def arrival (op : Op) : Arrival := ⟨1, op, 0, 5, 1, 0, 0, []⟩
theorem wit_BarriersAndPhases :
    (∀ c ∈ colls, Executes c.1 c.2 (st trapper (helperBlock 0)) 0 trapper (helperBlock 0)) ∧
    (∀ c ∈ colls, Executes c.1 c.2 (s0 { helperThread with skeins := 0 }) 0 { helperThread with skeins := 0 } (helperBlock 0)) ∧
    (∀ c ∈ colls, let p := { Phase.empty 0 with waiting := [0, 2], arrived := [arrival c.1], fixed := some (0, c.1) }
      Executes c.1 c.2 (st helperThread (phased p)) 0 helperThread (phased p) ∧
      ((phased p).phaseOf (.skein c.2.low4)).waiting = [0, 2] ∧ ((phased p).phaseOf (.skein c.2.low4)).fixed = some (helperThread.pc, c.1)) ∧
    (∀ c ∈ colls, let p := { Phase.empty 0 with waiting := [2], late := [arrival c.1] }
      Executes c.1 c.2 (st helperThread (phased p)) 0 helperThread (phased p) ∧
      ((phased p).phaseOf (.skein c.2.low4)).waiting = [2] ∧ (arrival c.1).pc = helperThread.pc ∧ (arrival c.1).op = c.1) ∧
    (∀ c ∈ colls, let p := { Phase.empty 0 with waiting := [0, 2], fixed := some (12, c.1) }
      Executes c.1 c.2 (st helperThread (phased p)) 0 helperThread (phased p) ∧ (12, c.1) ≠ (helperThread.pc, c.1)) ∧
    (∀ c ∈ colls, let p := { Phase.empty 0 with waiting := [0], arrived := [arrival c.1], fixed := some (0, c.1) }
      let s := { st helperThread (phased p) with threads := [(0, helperThread), (1, helperThread)] }
      Executes c.1 c.2 s 0 helperThread (phased p) ∧ ((phased p).phaseOf (.skein c.2.low4)).waiting = [tkThr 0] ∧
      (p.arrived.map (·.t)).Nodup ∧ tkThr 0 ∉ p.arrived.map (·.t) ∧ ∀ a ∈ p.arrived, (s.thread? (0 * 4096 + a.t)).isSome = true) := by
  refine ⟨colls_execute _ _ (by decide), colls_execute _ _ (by decide), ?_, ?_, ?_, ?_⟩
  · intro c hc
    refine ⟨executes _ _ _ _ ?_, ?_, ?_⟩ <;> revert c <;> decide
  · intro c hc
    refine ⟨executes _ _ _ _ ?_, ?_, ?_, ?_⟩ <;> revert c <;> decide
  · intro c hc
    refine ⟨executes _ _ _ _ ?_, ?_⟩ <;> revert c <;> decide
  · intro c hc
    refine ⟨executesIn ⟨rfl, rfl, rfl⟩ ?_, ?_, ?_, ?_, ?_⟩ <;> revert c <;> decide
theorem wit_CollectiveValues :
    let me (op : Op) (x : Nat) : Arrival := ⟨0, op, 0, 0xFFFFFFFF, 1, x, 0, []⟩
    [me .shfl 1, arrival .shfl][0]? = some (me .shfl 1) ∧ [me .skred 9, arrival .skred].length = 2 ∧
    ∀ x ∈ [me .shfl 1, arrival .shfl], x.a < 2 ^ 32 ∧ x.b < 2 ^ 32 := by decide
/-- Byte-barrier operations on the object at offset 2^21 − 16 of the own scratchpad, on a misaligned one, on one past the scratchpad
and on one of a rank that is absent. -/
def bbs (mode : BitVec 8) : List (Op × Fields × Bool) :=
  [(.bexpect, { f0 with a := ⟨.v, 4⟩, b := ⟨.v, 5⟩ }, true), (.barrive, { f0 with a := ⟨.v, 4⟩, fn := mode }, true),
   (.bwait, { f0 with a := ⟨.v, 4⟩, x := 1 }, false), (.btest, { f0 with a := ⟨.v, 4⟩, d := 2 }, false)]
theorem bbs_execute (t : Thread) (h : t.exited = false ∧ nextTrap t = none ∧ t.spec = none ∧ t.pcTop = 0 ∧
      ∀ c ∈ bbs 0, guardOf t c.2.1 = true ∧ wordTrap c.1 c.2.1 t (helperBlock 0) = none) :
    ∀ c ∈ bbs 0, Executes c.1 c.2.1 (s0 t) 0 t (helperBlock 0) :=
  fun c hc => executes _ _ _ _ ⟨h.1, h.2.1, h.2.2.1, h.2.2.2.1, h.2.2.2.2 c hc⟩
theorem wit_ByteBarriersAndTheirTraps :
    (let t := thr [(4, 0x1FFFF0), (5, 9)]
     let s := st t (helperBlock 0)
     (∀ c ∈ (.binit, { f0 with a := ⟨.v, 4⟩, b := ⟨.v, 5⟩ }, true) :: bbs 0 ++ bbs 0x60, Executes c.1 c.2.1 s 0 t (helperBlock 0) ∧
        (match (helperBlock 0).scrPort (barrierAsk c.1 c.2.2) ((opndA c.1 t (helperBlock 0) c.2.1 + c.2.1.imm.toNat) % 2 ^ 32) with
          | .ok _ => true | _ => false) = true) ∧
      s.objectHeld 0 t (helperBlock 0) 0x1FFFF0 = false ∧ (helperBlock 0).scrCopy 0x1FFFF0 = (0, 0, 0x1FFFF0) ∧
      s.block? (bkOf 0 0) = some (helperBlock 0) ∧ (s.core 0).scratch.wf = true ∧ s.fenceOk 0 t .stk = true ∧
      (s.objFields 0 0x1FFFF0).phase = ({ f0 with a := ⟨.v, 4⟩, d := 2 } : Fields).x.getLsbD 0 ∧
      (s.objFields 0 0x1FFFF0).phase ≠ ({ f0 with x := 1 } : Fields).x.getLsbD 0) ∧
    (let f := { f0 with b := ⟨.v, 5⟩ }
     allExecute [.binit] f (thr []) ∧ opndB .binit (thr []) (helperBlock 0) f = 0 ∧
      allExecute [.binit] f (thr [(5, 65536)]) ∧ opndB .binit (thr [(5, 65536)]) (helperBlock 0) f = (65536 : Word).toNat) ∧
    (∀ c ∈ bbs 0, Executes c.1 c.2.1 (s0 (thr [(4, 8)])) 0 (thr [(4, 8)]) (helperBlock 0)) ∧
    (∀ c ∈ bbs 0, Executes c.1 c.2.1 (s0 (thr [(4, 0x200000)])) 0 (thr [(4, 0x200000)]) (helperBlock 0)) ∧
    (∀ c ∈ bbs 0, Executes c.1 c.2.1 (s0 (thr [(4, 0x90000000)])) 0 (thr [(4, 0x90000000)]) (helperBlock 0)) ∧
    (∀ c ∈ bbs 0, (opndA c.1 (thr [(4, 0x90000000)]) (helperBlock 0) c.2.1 + c.2.1.imm.toNat) % 2 ^ 32 = (0x90000000 : Word).toNat) ∧
    ((helperBlock 0).spsize = 0x200000 ∧ (helperBlock 0).desc.quilt ≤ 0x90000000 / 2 ^ 28 % 8) := by
  refine ⟨⟨fun c hc => ⟨executes _ _ _ _ ?_, ?_⟩, by decide⟩, ⟨all_execute (by decide), by decide, all_execute (by decide), by decide⟩,
    bbs_execute _ (by decide), bbs_execute _ (by decide), bbs_execute _ (by decide), by decide, by decide⟩
  · revert c; decide
  · revert c; decide
/-- A store of the thread to its scratchpad that is still in flight. -/
def storing (p : Place) : Req :=
  { id := 1, tk := 0, act := .store [1], place := p, ord := .plain, scope := .stk, stage := .mesh, gen := 0, dom := 0, seq := 0, hem := none, got := [], mark := 0, pend := none, part := 0
    before := [], rel := [], ordered := [], home := .skein 0, counted := true, group := 1, peer := false, trap := ⟨0x15, 0, 0⟩, issue := 7, priv := false, due := 9, ackDue := 9 }
/-- A matrix entry of seam 1. -/
def seamEntry : MxEntry := mkEntry (s0 helperThread) .mma { f0 with a := ⟨.alt, 1⟩ } 0 helperThread (helperBlock 0)
theorem wit_Seams :
    (let f := { f0 with a := ⟨.alt, 1⟩, b := ⟨.v, 4⟩ }
     allExecute [.seamset] f (thr [(4, 4095)]) ∧ opndB .seamset (thr [(4, 4095)]) (helperBlock 0) f = (4095 : Word).toNat ∧
      allExecute [.seamset] f (thr [(4, 4096)]) ∧ opndB .seamset (thr [(4, 4096)]) (helperBlock 0) f = (4096 : Word).toNat) ∧
    (s0 helperThread).seamBusy 0 (helperBlock 0) 1 = false ∧
    (let s := { s0 (thr [(4, 4095)]) with cores := [(0, { Core.reset with mxq := [seamEntry] })] }
     Executes .seamset { f0 with a := ⟨.alt, 1⟩, b := ⟨.v, 4⟩ } s 0 (thr [(4, 4095)]) (helperBlock 0) ∧ s.seamBusy 0 (helperBlock 0) 1 = true) ∧
    (∀ n ∈ [8190, 8191], let b := { helperBlock 0 with seams := [(1, ⟨4095, n, true⟩)] }
      Executes .seamsign { f0 with a := ⟨.alt, 1⟩ } (st helperThread b) 0 helperThread b ∧ (st helperThread b).operandOk 0 helperThread = true) ∧
    (let s := { s0 helperThread with reqs := [storing (.scr [(0, 0, 64)])] }
     Executes .seamsign { f0 with a := ⟨.alt, 1⟩ } s 0 helperThread (helperBlock 0) ∧ s.operandOk 0 helperThread = false) ∧
    allExecute [.seamwait] { f0 with a := ⟨.alt, 1⟩ } helperThread ∧ allExecute [.seamwait] { f0 with a := ⟨.alt, 1⟩, x := 1 } helperThread ∧
    allExecute [.seamtest] { f0 with a := ⟨.alt, 1⟩, d := 2 } helperThread := by
  refine ⟨⟨all_execute (by decide), by decide, all_execute (by decide), by decide⟩, by decide,
    ⟨executesIn ⟨rfl, rfl, rfl⟩ (by decide), by decide⟩, ?_, ⟨executesIn ⟨rfl, rfl, rfl⟩ (by decide), by decide⟩,
    all_execute (by decide), all_execute (by decide), all_execute (by decide)⟩
  · intro n hn
    refine ⟨executes _ _ _ _ ?_, ?_⟩ <;> revert n <;> decide
/-- The helper thread where its core's TLB holds one page of 64 KiB at VA 0. -/
def mapped (e : TlbEntry) (t : Thread) (b : Block) : State := { st t b with cores := [(0, { Core.reset with tlb := [e] })] }
/-- A page that the machine may not use as the access asks: not for users, read only, device registers. -/
def pageOf (mt : Nat) (u w : Bool) : TlbEntry := ⟨5, 0, 1, 0, mt, u, true, w⟩
theorem wit_MemoryPorts :
    let q := plainAsk .gst { f0 with fn := 0x64 } true 0 false
    0 < q.n ∧ q.n ≤ 16 ∧ 2 ^ 56 < (2 ^ 56 - 8) + q.n ∧ (2 ^ 56 - 16) + q.n ≤ 2 ^ 56 ∧ (q.align = some 0 ∧ 8 % q.n ≠ 0 ∧ 32 % q.n = 0) ∧
    (∀ e ∈ [pageOf 0 false true, pageOf 0 true false, pageOf 2 true true], (mapped e helperThread b5).tlbFind 0 b5.asid 0 = some e) ∧
    (st helperThread b5).tlbFind 0 b5.asid 0 = none ∧ helperThread.walkFail = none ∧ ((st helperThread b5).core 0).det = false ∧
    ({ helperThread with walkFail := some (0, ⟨5, 0, 4⟩) }).walkFail = some (0, ⟨5, 0, 4⟩) ∧
    ((helperBlock 0).spsize < (2 ^ 21 - 8) + q.n ∧ (2 ^ 21 - 16) + q.n ≤ (helperBlock 0).spsize ∧ (helperBlock 0).desc.mirrored = false) := by
  decide
/-- Which memory instructions, with their fields: a load and store of 4 bytes, atomics of 32 bits. -/
def mems : List (Op × Fields) :=
  let a : Fields := { f0 with fn := 0x42, a := ⟨.v, 4⟩ }
  let r : Fields := { f0 with fn := 0x22, a := ⟨.v, 4⟩, b := ⟨.v, 6⟩ }
  [(.gld, { a with d := 8 }), (.sld, { a with d := 8 }), (.lld, { a with d := 8 }), (.gst, r), (.sst, r), (.lst, r), (.gamo, { r with d := 8 }),
   (.samo, { r with d := 8 }), (.gcas, { r with d := 8, x := 9 }), (.scas, { r with d := 8, x := 9 }), (.gred, r), (.sred, r)]
/-- The port of each on the helper block. -/
def portOf (s : State) (t : Thread) (b : Block) (c : Op × Fields) : PortEnd :=
  let f := c.2
  let g := (opndA c.1 t b f + (f.imm.signExtend 64).toNat) % 2 ^ 64
  let a := (opndA c.1 t b f + f.imm.toNat) % 2 ^ 32
  let l := (b.tlBase 0 + a) % 2 ^ 64
  match c.1 with
  | .gld => s.globalPort 0 t b (plainAsk .gld f false 0 false) g
  | .gst => s.globalPort 0 t b (plainAsk .gst f true 0 false) g
  | .lld => s.globalPort 0 t b (plainAsk .lld f false 3 false) l
  | .lst => s.globalPort 0 t b (plainAsk .lst f true 3 false) l
  | .sld => b.scrPort (plainAsk .sld f false 1 false) a
  | .sst => b.scrPort (plainAsk .sst f true 1 true) a
  | .samo => b.scrPort { rmwAsk .samo f with space := 1 } a
  | .sred => b.scrPort { rmwAsk .sred f with space := 1 } a
  | .scas => b.scrPort { rmwAsk .scas f with space := 1 } a
  | op => s.globalPort 0 t b { rmwAsk op f with space := 0 } g
/-- Each has one piece of 4 bytes at the address in v4, and does not wait at the port. -/
theorem wit_LoadsStoresAndAtomics :
    let t := thr [(4, 0xFFFC), (6, 7)]
    let s := mapped (helperPage 0) t (helperBlock 0)
    ∀ c ∈ mems, Executes c.1 c.2 s 0 t (helperBlock 0) ∧ (∃ p, portOf s t (helperBlock 0) c = .ok [p] ∧ s.portWait 0 t [p] = none ∧
      p.part + p.len ≤ szBytes c.2.sz) := by
  intro t s c hc
  refine ⟨executesIn ⟨rfl, rfl, rfl⟩ ?_, ?_⟩
  · revert c; decide
  · suffices h : (match portOf s t (helperBlock 0) c with
        | .ok [p] => decide (s.portWait 0 t [p] = none ∧ p.part + p.len ≤ szBytes c.2.sz) | _ => false) = true by
      split at h
      · exact ⟨_, by assumption, of_decide_eq_true h⟩
      · cases h
    revert c; decide
/-- Each at a misaligned address, the global ones without a translation and in device registers beside an access there. -/
theorem wit_MemoryPortTraps :
    (let t := thr [(4, 1), (6, 7)]
     let s := mapped (helperPage 0) t (helperBlock 0)
     ∀ c ∈ mems, Executes c.1 c.2 s 0 t (helperBlock 0) ∧ (match portOf s t (helperBlock 0) c with | .trap _ => true | _ => false) = true) ∧
    (let t := thr [(4, 4), (6, 7)]
     let s := st t (helperBlock 0)
     ∀ c ∈ [Op.gld, .gst, .gamo, .gcas, .gred, .lld, .lst], ∀ m ∈ mems, m.1 = c → Executes c m.2 s 0 t (helperBlock 0) ∧
      (match portOf s t (helperBlock 0) m with | .miss _ => true | _ => false) = true) ∧
    (let t := thr [(4, 4), (6, 7)]
     let s := { mapped ⟨0, 0, 1, 0, 2, true, true, true⟩ t (helperBlock 0) with reqs := [storing (.dev 0)] }
     ∀ c ∈ [Op.gld, .gst, .lld, .lst], ∀ m ∈ mems, m.1 = c → Executes c m.2 s 0 t (helperBlock 0) ∧
      (match portOf s t (helperBlock 0) m with | .ok ps => (s.portWait 0 t ps).isSome | _ => false) = true) := by
  refine ⟨?_, ?_, ?_⟩ <;> intro t s c hc
  · refine ⟨executesIn ⟨rfl, rfl, rfl⟩ ?_, ?_⟩ <;> revert c <;> decide
  · intro m hm he
    subst he
    refine ⟨executesIn ⟨rfl, rfl, rfl⟩ ?_, ?_⟩ <;> revert m <;> decide
  · intro m hm he
    subst he
    refine ⟨executesIn ⟨rfl, rfl, rfl⟩ ?_, ?_⟩ <;> revert m <;> decide
/-- The helper's state with one dirty line at PA 128 of this device, and its DRAM as after reset. -/
def cached (t : Thread) (b : Block) : State :=
  { mapped (helperPage 0) t b with lines := [(1, { data := 7, dirty := true, poison := [], sharers := 0, copies := [], slice := 0 })] }
theorem linesOk_of (s : State) (h : s.lines = [(1, { data := 7, dirty := true, poison := [], sharers := 0, copies := [], slice := 0 })])
    (hd : s.ownDram 128 = true) (hv : s.vaultLost 128 = false) : s.linesOk := by
  intro ln l hl
  rw [h] at hl
  by_cases hn : (1 : Nat) = ln
  · subst hn
    obtain rfl := Option.some.inj hl
    exact ⟨hd, hv, nofun, nofun⟩
  · simp [Sparse.get?, hn] at hl
/-- A fence with nothing and with a store of the thread in flight; a CCTL.inv of two lines, one of them cached. -/
theorem wit_FencesMarkersAndCaches :
    allExecute [.fence, .mark] { f0 with fn := 0 } helperThread ∧ (s0 helperThread).fenceOk 0 helperThread .sk = true ∧
    (let s := { s0 helperThread with reqs := [storing (.dram 0 false)] }
     Executes .fence { f0 with fn := 0x18 } s 0 helperThread (helperBlock 0) ∧ s.fenceOk 0 helperThread .sys = false) ∧
    bkOf (s0 helperThread).cur.core (s0 helperThread).cur.bslot = tkBk 0 ∧
    (let t := thr [(4, 127), (6, 2)]
     let s := cached t (helperBlock 0)
     s.memOk ∧ s.linesOk ∧ ∀ x : Fin 3, let f := { f0 with a := ⟨.v, 4⟩, b := ⟨.v, 6⟩, x := BitVec.ofNat 8 x.val }
      Executes .cctl f s 0 t (helperBlock 0) ∧ Executes .pref { f with b := ⟨.v, 0⟩, x := 0 } s 0 t (helperBlock 0) ∧
      cctlCheck s t (helperBlock 0) ((opndA .cctl t (helperBlock 0) f + (f.imm.signExtend 64).toNat) % 2 ^ 64)
        (opndB .cctl t (helperBlock 0) f) (x.val != 0) = none ∧ s.fenceOk 0 t .sk = true ∧ cctlLines s (helperBlock 0) 127 2 = [0, 1]) ∧
    (let t := thr [(4, 127), (6, 2)]
     Executes .cctl { f0 with a := ⟨.v, 4⟩, b := ⟨.v, 6⟩, x := 1 } (mapped (pageOf 0 true false) t b5) 0 t b5 ∧
     (cctlCheck (mapped (pageOf 0 true false) t b5) t b5 127 2 true).isSome = true) := by
  refine ⟨all_execute (by decide), by decide, ⟨executesIn ⟨rfl, rfl, rfl⟩ (by decide), by decide⟩, by decide,
    ⟨rfl, linesOk_of _ rfl (by decide) (by decide), fun x => ⟨executesIn ⟨rfl, rfl, rfl⟩ ?_, executesIn ⟨rfl, rfl, rfl⟩ ?_, ?_, ?_, ?_⟩⟩,
    executesIn ⟨rfl, rfl, rfl⟩ (by decide), by decide⟩
  all_goals revert x; decide
/-- An access in flight. -/
def access (a : Action) (p : Place) (g : Stage) (counted : Bool) : Req :=
  { storing p with act := a, stage := g, counted := counted, due := 0, pend := if counted then none else some 7 }
/-- The state in which it is the one access in flight. -/
def flying (r : Req) : State := { cached helperThread (helperBlock 0) with reqs := [r] }
/-- Each action at each stage in DRAM of the own site, next to the cached line; scratchpad accesses with and without a block there. -/
theorem wit_HomeSliceAndScratchpadAccesses :
    (∀ c ∈ [(Action.store [1, 2], true), (.load 4, false), (.rmw 0 32 5 true, false)], ∀ g ∈ [Stage.held, .mesh, .hem],
      let r := { access c.1 (.dram 124 false) g c.2 with gen := 0 }
      let s := flying r
      s.memOk ∧ s.linesOk ∧ s.reqs.find? (fun r => r.id = 1) = some r ∧ s.mayPerform r = true ∧ s.ownDram 124 = true ∧
        r.gen = s.genOfPa 124 ∧ paSite 124 = tkCore r.tk / 4 ∧ 124 % 128 + r.act.len ≤ 128 ∧
        (s.site (paSite 124)).quadOk (frameOf (paOfs 124)) = true ∧ s.vaultLost 124 = false ∧
        s.unreachable (tkCore r.tk / 4) 124 = none ∧ s.poisonIn 124 r.act.len = none ∧ r.ord = .plain ∧ s.thread? r.tk = some helperThread ∧
        (s.block? (tkBk r.tk)).isSome = true) ∧
    (let r := { access (.load 4) (.dram 124 false) .mesh false with gen := 1 }
     r.gen ≠ (flying r).genOfPa 124 ∧ (flying r).mayPerform r = true) ∧
    paSite (2 ^ 36) ≠ tkCore 0 / 4 ∧ (State.reset).ownDram (2 ^ 36) = true ∧
    (∀ c ∈ [(Action.store [1, 2], true), (.load 4, false)], ∀ k ∈ [[(0, 0, 2 ^ 21 - 4)], [(0, 5, 0), (0, 0, 0)]],
      let r := access c.1 (.scr k) .held c.2
      let s := flying r
      s.reqs.find? (fun r => r.id = 1) = some r ∧ s.mayPerform r = true ∧ (s.core 0).scratch.wf = true ∧
        ((s.copyBlock r.tk (0, 0, 2 ^ 21 - 4)).isSome = true ∧ s.copyBlock r.tk (0, 5, 0) = none) ∧ s.scrPoisonIn 0 (2 ^ 21 - 4) 4 = none ∧
        r.ord = .plain ∧ s.thread? r.tk = some helperThread ∧ (s.block? (tkBk r.tk)).isSome = true) := by
  refine ⟨fun c hc g hg => ⟨rfl, linesOk_of _ rfl ?_ ?_, ?_⟩, by decide, by decide, by decide, ?_⟩
  · revert g c; decide
  · revert g c; decide
  · revert g c; decide
  · decide
/-- A window of a load of n bytes into v8 on. -/
def loadPend (n : Nat) (sg : Bool) : Pend :=
  { id := 7, op := .gld, left := 15, kind := .load n sg, regs := (List.range (if n = 8 then 2 else if n = 16 then 4 else 1)).map (8 + ·)
    pred := none, buf := [], need := n, acq := false, vals := [], pval := false, ready := false, mark := none, flags := 0, home := .skein 0, due := 0, overAt := [] }
theorem wit_ValuesAndAccessesInFlight :
    (∀ n ∈ [1, 2, 4, 8, 16], let p := loadPend n (decide (n ≤ 2))
      p.kind = .load n (decide (n ≤ 2)) ∧ p.need = n ∧ p.buf = [] ∧ p.ready = false ∧ p.mark = none ∧
        ((List.replicate (n / 2) (1 : Byte)).length + (List.replicate (n - n / 2) (2 : Byte)).length = n)) ∧
    ((0xFFFFFFFF : Nat) < 2 ^ 32 ∧ (2 ^ 64 - 1 : Nat) < 2 ^ 64) ∧
    (let r := access (.load 4) (.dram 124 false) .retry false
     (flying r).reqs.find? (fun r => r.id = 1) = some r ∧ r.stage = .retry) ∧
    (∀ n : Fin 2, let r := access (.store [1]) (.dram 124 false) .done true
     let s := { flying r with reqs := r :: List.replicate n.val { r with id := 2 } }
     s.reqs.find? (fun r => r.id = 1) = some r ∧ r.counted = true ∧ r.stage = .done ∧ s.thread? r.tk = some helperThread ∧
      s.reqs.any (fun e => e.id != 1 && e.group == r.group && e.tk == r.tk && e.counted) = decide (n.val = 1)) ∧
    (let s := { s0 { helperThread with wait := .walk 3 } with walks := [⟨3, 0, 5, 1, 0⟩] }
     s.walks.find? (fun w => w.id = 3) = some ⟨3, 0, 5, 1, 0⟩ ∧ s.thread? 0 = some { helperThread with wait := .walk 3 } ∧
      s.walk 0 5 65536 = .fail 4 5 ∧
      { s with mem := [(80, 1), (82, 1), (0x10000, 1), (0x10002, 2), (0x20000, 0x1F)] }.walk 0 5 65536 =
        .ok ⟨5, 0, 8192, 0, 0, true, true, true⟩) ∧
    (let p := { loadPend 4 false with ready := true, vals := [(8, 99)] }
     let t := { helperThread with pends := [p] }
     (s0 t).thread? 0 = some t ∧ (t.pends.map (·.id)).Nodup ∧ t.pends.find? (fun p => p.id = 7) = some p ∧ p.ready = true ∧ 8 ∈ p.regs ∧
      Sparse.get? p.vals 8 = some 99 ∧ t.pendTrap = none ∧ t.spec = none) := by
  decide
/-- A residency of two slots of core 0: its handle is 0x10001. -/
def resident (g : RsState) : Residency :=
  { base := 0, cnt := 2, gen := 1, owner := 0, state := g, filled := 1, since := 1, pinned := false, live := true, src := none, granules := []
    inUse := 0, stamp := 0 }
/-- A state in which core 0 is `c`. -/
def onCore (c : Core) (t : Thread) : State := { s0 t with cores := [(0, c)] }
/-- A core with that residency, and the quota for two pinned slots. -/
def holding (g : RsState) : Core := { Core.reset with dir := [resident g], quotas := [(0, 2)], allocCtr := 2, stamp := 1 }
/-- The instructions that enter the matrix queue. -/
def entering : List (Op × Fields) :=
  let f : Fields := { f0 with a := ⟨.v, 4⟩, b := ⟨.v, 6⟩ }
  let g : Fields := { f0 with d := 1, a := ⟨.v, 4⟩ }
  [(.mma, { f with d := 1, a := ⟨.alt, 3⟩, imm := 127 }), (.rsfill, { f with imm := 0x1FFFF0 }), (.accz, { g with a := ⟨.v, 0⟩, imm := 0x7F00 }),
   (.accld, { g with imm := 0x7F00, x := 0x20 }), (.accst, { g with imm := 0x0302, x := 0x20 }), (.accadd, { g with a := ⟨.alt, 2⟩ }),
   (.accmov, { g with a := ⟨.alt, 2⟩ })]
/-- A started entry of the helper thread. -/
def started (e : MxEntry) : MxEntry := { e with started := true }
/-- The entry of an instruction with v4 = 0 and the handle 0x10001 in v6. -/
def entryOf (op : Op) (f : Fields) : MxEntry := started (mkEntry (s0 (thr [(6, 0x10001), (7, 1)])) op f 0 (thr [(6, 0x10001), (7, 1)]) (helperBlock 0))
theorem wit_MatrixEntriesAndFills :
    (let t := thr [(6, 0x10001), (7, 0)]
     let s := onCore (holding .filling) t
     ∀ c ∈ entering, Executes c.1 c.2 s 0 t (helperBlock 0) ∧ s.mxCheck c.1 t (helperBlock 0) c.2 = none ∧ s.mayEnter 0 t = true) ∧
    (let t := thr [(6, 0x10001), (7, 0)]
     let s := onCore { holding .filling with mxq := List.replicate 16 seamEntry } t
     ∀ c ∈ entering, Executes c.1 c.2 s 0 t (helperBlock 0) ∧ s.mayEnter 0 t = false) ∧
    (let t := thr [(4, 1), (6, 0), (7, 0)]
     ∀ c ∈ entering, c.1 ∈ [Op.mma, .rsfill, .accld, .accst] → Executes c.1 c.2 (s0 t) 0 t (helperBlock 0) ∧
      (s0 t).mayEnter 0 t = true ∧ ((s0 t).mxCheck c.1 t (helperBlock 0) c.2).isSome = true) ∧
    (∀ c ∈ entering, c.1 ≠ .mma →
      let e := entryOf c.1 c.2
      let s := onCore { holding .filling with mxq := [e] } helperThread
      (s.core 0).mxq.find? (fun x => x.id = e.id) = some e ∧ e.started = true ∧ s.block? (tkBk e.tk) = some (helperBlock 0) ∧
        (s.core 0).scratch.wf = true ∧ (s.core 0).matrixFenced = false ∧ e.op = c.1 ∧ (∀ x ∈ (s.core 0).mxq.takeWhile (fun x => x.id != e.id), x.op ≠ .mma) ∧
        (c.1 ≠ .rsfill → e.first + e.rows ≤ 128) ∧ e.at_ = 0 ∧ s.resOf 0x10001 = some (resident .filling) ∧
        (c.1 = .rsfill → e.handle = 0x10001 ∧ hCore e.handle = 0 ∧ e.slot = 1 ∧ (helperBlock 0).scrCopy e.bar = (0, 0, 0x1FFFF0)) ∧
        (c.1 = .accld ∨ c.1 = .accst → e.fmt = 0x20)) := by
  refine ⟨fun c hc => ⟨executesIn ⟨rfl, rfl, rfl⟩ ?_, ?_⟩, fun c hc => ⟨executesIn ⟨rfl, rfl, rfl⟩ ?_, ?_⟩,
    fun c hc hm => ⟨executesIn ⟨rfl, rfl, rfl⟩ ?_, ?_⟩, ?_⟩
  · revert c; decide
  · revert c; decide
  · revert c; decide
  · revert c; decide
  · revert c; decide
  · revert c; decide
  · decide
/-- Residencies of every slot, each pinned, in use or revoked and still in use. -/
def full (pinned live : Bool) (use : Nat) : Core :=
  { Core.reset with dir := [{ resident .valid with cnt := 32, pinned := pinned, live := live, inUse := use }], stamp := 1 }
theorem wit_ResidencyAllocationAndUse :
    (let f := { f0 with d := 8, a := ⟨.v, 4⟩ }
     allExecute [.rsalloc] f (thr []) ∧ opndA .rsalloc (thr []) (helperBlock 0) f = 0 ∧ opndA .rsalloc (thr [(4, 33)]) (helperBlock 0) f = 33 ∧
      allExecute [.rsalloc] f (thr [(4, 33)]) ∧
      Executes .rsalloc f (onCore (holding .valid) (thr [(4, 30)])) 0 (thr [(4, 30)]) (helperBlock 0) ∧
      opndA .rsalloc (thr [(4, 30)]) (helperBlock 0) f = 30 ∧
      (∀ i, i < 30 → ∀ r ∈ (holding .valid).dir, r.state ≠ .evicted → ¬(r.base ≤ 2 + i ∧ 2 + i < r.base + r.cnt)) ∧
      (∀ k, k < 2 → ∃ i, i < 30 ∧ ∃ r ∈ (holding .valid).dir, r.state ≠ .evicted ∧ r.base ≤ k + i ∧ k + i < r.base + r.cnt)) ∧
    (∀ c ∈ [full true true 0, full false false 1, full false true 1], (c.dir.map (·.stamp)).Nodup ∧
      (∀ r ∈ c.dir, r.state ≠ .evicted → r.live = false ∨ r.pinned = true ∨ r.inUse ≠ 0) ∧
      ∀ k, k < 32 → ∃ r ∈ c.dir, r.state ≠ .evicted ∧ r.base ≤ k ∧ k < r.base + r.cnt) ∧
    (let t := thr [(6, 0x10001)]
     let f := { f0 with b := ⟨.v, 6⟩ }
     ∀ g ∈ [RsState.filling, .valid, .stale, .evicted], (∀ op ∈ [Op.rspin, .rsunpin, .rsrevoke], Executes op f (onCore (holding g) t) 0 t (helperBlock 0)) ∧
      Executes .rssrc { f with a := ⟨.v, 8⟩, x := 10 } (onCore (holding g) t) 0 t (helperBlock 0) ∧
      Executes .rsquery { f with d := 8 } (onCore (holding g) t) 0 t (helperBlock 0) ∧
      (onCore (holding g) t).resOf 0x10001 = some (resident g) ∧ (onCore (holding g) t).resOf 0x10002 = none ∧
      (holding g).pinnedBy 0 + (resident g).cnt ≤ (holding g).quotaOf 0 ∧
      ({ holding g with quotas := [] } : Core).quotaOf 0 < ({ holding g with quotas := [] } : Core).pinnedBy 0 + (resident g).cnt ∧
      opndB .rspin t (helperBlock 0) f = 0x10001 ∧ 0x10001 / 2 ^ 26 % 64 = 0 ∧
      (onCore (holding g) t).srcCheck t (helperBlock 0) 0 0 = none) ∧
    (let t := thr [(6, 0x10002)]
     let f := { f0 with b := ⟨.v, 6⟩ }
     allExecute [.rspin, .rsunpin, .rsrevoke] f t ∧ allExecute [.rsquery] { f with d := 8 } t ∧
      allExecute [.rssrc] { f with a := ⟨.v, 8⟩, x := 10 } t) := by
  refine ⟨⟨all_execute (by decide), by decide, by decide, all_execute (by decide), executesIn ⟨rfl, rfl, rfl⟩ (by decide), by decide, by decide, by decide⟩,
    by decide, fun g hg => ⟨fun op ho => executesIn ⟨rfl, rfl, rfl⟩ ?_, executesIn ⟨rfl, rfl, rfl⟩ ?_, executesIn ⟨rfl, rfl, rfl⟩ ?_, ?_⟩,
    all_execute (by decide), all_execute (by decide), all_execute (by decide)⟩
  · revert op; decide
  · decide
  · decide
  · revert g; decide
/-- An entry of an MMA on the residency of core 0, and the core that holds it. -/
def mmaEntry (began : Bool) : MxEntry := { entryOf .mma { f0 with d := 1, a := ⟨.alt, 3⟩, b := ⟨.v, 6⟩, imm := 3 } with started := began, stepping := began }
def arrayCore (g : RsState) (began : Bool) : Core :=
  { holding g with mxq := [mmaEntry began], array := if began then some (mmaEntry began).id else none, slots := [(0, { Slot.reset with tag := 5 })] }
theorem wit_KStepsAndTheArray :
    (fp32.finite (0x3F800000 : Word).toNat = true ∧ (∀ p ∈ [FV.zero true, .fin false 3 (-1)], ∃ n m e, p = .zero n ∨ (p = .fin n m e ∧ 0 < m)) ∧
      fp32.rat (0x3F800000 : Word).toNat = 1 ∧ (FV.fin false 3 (-1)).rat = 3 / 2 ∧ (FV.zero true).rat = 0 ∧ (2 : Rat) ^ (0 : Int) ≤ 3 / 2 ∧
      (3 : Rat) / 2 < (2 : Rat) ^ ((0 : Int) + 1)) ∧
    (∀ g ∈ [RsState.valid, .stale], let s := onCore (arrayCore g false) helperThread
      s.nextMma 0 = some (mmaEntry false) ∧ (s.core 0).dir.find? (fun r => r.handle 0 = (mmaEntry false).handle) = some (resident g) ∧
        (mmaEntry false).staleOk = false ∧ s.thread? (mmaEntry false).tk = some helperThread ∧ ((s.core 0).mxq.map (·.id)).Nodup) ∧
    (s0 helperThread).nextMma 0 = none ∧
    (let s := onCore (arrayCore .valid true) helperThread
     s.onArray 0 = some (mmaEntry true, helperBlock 0, resident .valid) ∧ (s.core 0).stepWaits (mmaEntry true) (resident .valid) = false ∧
      ((s.core 0).tilesOf (resident .valid)) = [0, 1] ∧ (mmaEntry true).stepping = true ∧ (mmaEntry true).p = 0 ∧ ((s.core 0).slot 0).tag = 5 ∧
      ((s.core 0).slot 1).tag = 0x1C) := by
  refine ⟨⟨by decide, ?_, by decide +kernel, by decide +kernel, by decide +kernel, by decide +kernel, by decide +kernel⟩, by decide, by decide, by decide⟩
  intro p hp
  rcases List.mem_cons.1 hp with rfl | hp
  · exact ⟨true, 0, 0, .inl rfl⟩
  · exact ⟨false, 3, -1, .inr ⟨List.mem_singleton.1 hp, by decide⟩⟩
theorem wit_Push : let f : Fields := { f0 with fn := 6, d := 7, a := ⟨.v, 112⟩ }
    allExecute [.push] f helperThread ∧ (Sparse.getD ((s0 helperThread).core 0).queues 6 []).length < 32 ∧
    (∃ c : Core, Executes .push f (onCore c helperThread) 0 helperThread (helperBlock 0) ∧ 32 ≤ (Sparse.getD c.queues 6 []).length ∧ c.det = false) ∧
    (helperBlock 0).savedCmds.any (fun c => c.qn == 6) = false :=
  ⟨all_execute (by decide), by decide,
    ⟨{ Core.reset with queues := [(6, List.replicate 32 ⟨0, [], 0, 6, 0, .skein 0, [], 0, none, false, 0, 0⟩)] },
      executesIn ⟨rfl, rfl, rfl⟩ (by decide), by decide, by decide⟩, by decide⟩

/-- A command of the helper block whose 64 bytes hold the fields (place, value), with no successors. -/
def cmdOf (qn : Nat) (fs : List (Nat × Nat)) : Cmd :=
  ⟨5, leBytes 64 ((fs.map (fun x => x.2 * 256 ^ x.1)).sum + 0xFFFF * 256 ^ 6), 0, qn, 0, .skein 0, [], 0, none, false, 0, 0⟩
/-- The helper's state with the command at the head of its queue, its page of 64 KiB in the TLB. -/
def queued (c : Cmd) : State :=
  { s0 helperThread with cores := [(0, { Core.reset with tlb := [helperPage 0], queues := [(c.qn, [c])] })], routines := [6] }
theorem queued_ok (c : Cmd) : (queued c).memOk ∧ (queued c).linesOk := ⟨rfl, fun _ _ h => nomatch h⟩
theorem queued_maps (c : Cmd) (unit w : Bool) (va n : Nat) (h : va + n ≤ 65536)
    (hp : ∀ vpn, vpn < 1 → (queued c).tlbFind 0 0 vpn = some (helperPage 0))
    (hu : unit = true → (queued c).ownDram 0 = true ∧ paSite 0 = 0)
    (hw : ∀ k, k < n → (queued c).ownDram (va + k) = true ∧ (queued c).vaultLost (va + k) = false ∧ (queued c).poisonOf (va + k) = none ∧
      ((queued c).site (paSite (va + k))).quadOk (frameOf (paOfs (va + k))) = true ∧ (queued c).unreachable 0 (va + k) = none) :
    (queued c).Maps 0 0 unit w va n (fun k => va + k) := by
  refine ⟨by omega, fun k hk => ⟨helperPage 0, ?_, ?_, .inl rfl, fun _ => rfl, rfl, hu⟩, hw⟩
  · by_cases hz : va + k = 65536
    · omega
    · exact hp _ (by omega)
  · show va + k = 0 + (va + k - 0); omega
/-- One row of raw bytes each way: a move, a load and a store. -/
def copyCmd (op : Nat) : Cmd :=
  cmdOf 0 [(0, op), (8, if op = 3 then 64 else 128), (24, 4096), (40, 1), (44, 8), (48, 0x43), (49, 0x43)]
theorem wit_CopiesAndConversions :
    (∀ op ∈ [1, 2, 3], let c := copyCmd op
      let s := queued c
      (s.core 0).copyQueues 0 = [0] ∧ s.headCmd 0 0 = some c ∧ s.block? (tkBk c.tk) = some (helperBlock 0) ∧ c.op = op ∧ c.gnv = false ∧
        headerCheck (helperBlock 0) c = none ∧ copyCheck (helperBlock 0) c = none ∧ c.copy.spofs + c.copy.rows * c.copy.sstr + c.copy.elems ≤ 2 ^ 31 ∧
        c.copy.sfmt = c.copy.dfmt ∧ c.copy.sfmt = 0x43 ∧ c.copy.lay = 0 ∧ c.copy.rows = 1 ∧ c.copy.elems * storeSize c.copy.sfmt = 8 ∧
        (s.core 0).scratch.wf = true ∧ s.block? (bkOf (helperBlock 0).core (helperBlock 0).bslot) = some (helperBlock 0)) ∧
    (∀ op, op ∈ [1, 2] → (queued (copyCmd op)).memOk ∧ (queued (copyCmd op)).linesOk ∧
      (queued (copyCmd op)).Maps 0 0 false (op == 2) 128 8 (fun k => 128 + k)) ∧
    (isPlain8 0x1B = true ∧ fp32.finite 0x80000001 = true ∧ b8Finite 0x0C 0x5D = true) ∧
    ∀ v ∈ [FV.zero false, .fin true 5 (-3)], ∃ n m e, v = .zero n ∨ (v = .fin n m e ∧ 0 < m) := by
  refine ⟨by decide, fun op ho => ⟨(queued_ok _).1, (queued_ok _).2, queued_maps _ _ _ _ _ (by decide) ?_ nofun ?_⟩, by decide, ?_⟩
  · revert op; decide
  · revert op; decide
  · intro p hp
    rcases List.mem_cons.1 hp with rfl | hp
    · exact ⟨false, 0, 0, .inl rfl⟩
    · exact ⟨true, 5, -3, .inr ⟨List.mem_singleton.1 hp, by decide⟩⟩
/-- A command with its barrier at offset 0 that has started, with pieces to land or with none. -/
def running (engine : Nat) (ps : List Piece) (bad : Option (Nat × Nat × Nat)) : Running :=
  { id := 9, core := 0, engine := engine, cmd := { cmdOf 0 [(0, 1)] with succ := some 3 }, pieces := ps, flags := 0, sawPoison := false
    failed := bad, started := 0, due := 0 }
def landing (r : Running) : State := { s0 helperThread with sites := [(0, { Site.reset with running := [r] })] }
theorem wit_EngineLandings :
    (∀ r ∈ [running 0 [⟨.scr [], [], [], 128, 0⟩] none, running 0 [⟨.scr [(0, 0, 16)], [1, 2], [], 2, 16⟩] none, running 0 [] none,
        running 1 [] (some (3, 8, 0))],
      (landing r).running? 9 = some r ∧ (landing r).barAt r.cmd = some (0, 0) ∧ r ∈ ((landing r).site (r.core / 4)).running ∧
        ((landing r).core 0).scratch.wf = true ∧ r.sawPoison = false ∧ r.cmd.ere = false ∧ r.engine < 2 ∧ r.cmd.succ = some 3) ∧
    ((landing (running 0 [] none)).copyBlock 0 (0, 0, 16) = some (helperBlock 0)) ∧
    (landing (running 0 [] none)).block? 0 = some (helperBlock 0) ∧ ∀ n, ((helperBlock 0).node n).held = none :=
  ⟨by decide, by decide, by decide, fun _ => rfl⟩
/-- A call of each vendor routine on one element or block at VAs 0, 256, 512 and 1024, and of a customer routine. -/
def callCmd (entry : Nat) : Cmd :=
  cmdOf 2 ([(0, 0x10), (8, entry)] ++ [[(20, 1)], [(20, 256), (28, 1)], [(20, 1), (28, 512)], [(20, 256), (28, 512), (36, 1)],
    [(20, 256), (28, 512), (36, 1)], [(20, 256), (28, 1), (36, 0x20), (37, 0x2C), (44, 512), (52, 1024)], []].getD entry [])
/-- A decode of one head and one key of BF16. -/
def attCmd : Cmd := cmdOf 6 [(0, 0x20), (16, 256), (24, 1), (29, 0x41), (30, 1), (40, 512), (52, 0xFFFFFFFF)]
/-- Nothing is cut off on a Hem whose segments are whole. -/
theorem cutOff_whole (s : State) (h : s.hemFailed = []) (a b : Nat) : s.cutOff a b = false := by simp [State.cutOff, h]
theorem queued_byte (c : Cmd) (a : Nat) (h : a < 65536) : (queued c).ownDram a = true ∧ (queued c).vaultLost a = false ∧
    (queued c).poisonOf a = none ∧ ((queued c).site (paSite a)).quadOk (frameOf (paOfs a)) = true ∧ (queued c).unreachable 0 a = none := by
  have hd : paDev a = 0 := by show a / 2 ^ 42 % 1024 = 0; omega
  have hs : paSpace a = 0 := by show a / 2 ^ 40 % 4 = 0; omega
  have hi : paSite a = 0 := by show a / 2 ^ 36 % 16 = 0; omega
  have ho : frameOf (paOfs a) = 0 := by show a % 2 ^ 36 / 2 ^ 21 % 2 ^ 15 = 0; omega
  have h1 : (queued c).ownDram a = true := by simp only [State.ownDram, hd, hs]; rfl
  have h2 : (queued c).vaultLost a = false := by
    simp only [State.vaultLost, h1, hi]
    show (true && (Site.reset.vaultFenced).getLsbD _) = false
    simp [Site.reset]
  refine ⟨h1, h2, ?_, ?_, ?_⟩
  · simp only [State.poisonOf, h2]; rfl
  · rw [hi, ho]; show Site.reset.quadOk 0 = true; decide
  · rw [State.unreachable, cutOff_whole _ rfl, hd]; rfl
theorem call_maps (entry : Nat) (h : entry < 7) (w : Bool) (va n : Nat) (hv : va ∈ [0, 256, 512, 1024]) (hn : n ∈ [1, 4, 128]) :
    (queued (callCmd entry)).Maps 0 0 true w va n (fun k => va + k) := by
  have hn' : n ≤ 128 := by revert n; decide
  have hv' : va ≤ 1024 := by revert va; decide
  refine queued_maps _ _ _ _ _ (by omega) ?_ ?_ fun k hk => ?_
  · revert entry; decide
  · intro _; revert entry; decide
  · exact queued_byte _ _ (by omega)
theorem wit_SiteEngineCalls :
    (∀ entry, entry < 7 → let c := callCmd entry
      let s := queued c
      (s.site 0).fenced = false ∧ ((s.site 0).unit 0).fenced = false ∧ (s.site 0).running = [] ∧
        s.siteHead 0 0 (((List.range 4).filter (fun v => (s.site 0).unitFor v == some 0)).map (· + 2)) = some (0, c) ∧
        s.block? (tkBk c.tk) = some (helperBlock 0) ∧ c.op = 0x10 ∧ c.gnv = false ∧ headerCheck (helperBlock 0) c = none ∧
        s.nmuCheck (helperBlock 0) c = none ∧ c.entry = entry) ∧
    (∀ entry, entry < 7 → (queued (callCmd entry)).memOk ∧ (queued (callCmd entry)).linesOk ∧
      ∀ va ∈ [0, 256, 512, 1024], ∀ n ∈ [1, 4, 128], ∀ w, (queued (callCmd entry)).Maps 0 0 true w va n (fun k => va + k)) ∧
    ((callCmd 0).num 20 8 = 1 ∧ (callCmd 1).num 28 8 = 1 ∧ (callCmd 2).num 20 8 = 1 ∧ (callCmd 3).num 36 8 = 1 ∧ (callCmd 4).num 36 8 = 1 ∧
      (callCmd 5).num 28 8 = 1 ∧ (callCmd 5).num 44 8 = 512 ∧ (callCmd 5).num 52 8 = 1024) ∧
    (∀ i, i < 4 → (queued (callCmd 3)).homeByte (256 + i) = 0) ∧
    (∀ va ∈ [0, 256], (queued attCmd).Maps 0 0 false false va 128 (fun k => va + k)) ∧
    (let s := queued attCmd
     ((s.site 0).unit 4).fenced = false ∧ s.siteHead 0 4 [6] = some (0, attCmd) ∧ attCmd.op = 0x20 ∧ attCmd.gnv = false ∧
      headerCheck (helperBlock 0) attCmd = none ∧ attCheck (helperBlock 0) attCmd = none) := by
  refine ⟨by decide, fun e he => ⟨(queued_ok _).1, (queued_ok _).2, fun va hv n hn w => call_maps e he w va n hv hn⟩, by decide, by decide,
    fun va hv => queued_maps _ _ _ _ _ ?_ (by decide) nofun fun k hk => queued_byte _ _ ?_, by decide⟩
  · revert va; decide
  · have : va ≤ 256 := by revert va; decide
    omega
/-- A trap with a handler, without one, and in trap mode; BRK armed and not. -/
theorem wit_TrapEntry :
    (∀ op ∈ [Op.trap, .brk], let s := { s0 helperThread with tvec := [(0, 4)] }
      Alone s 0 helperThread (helperBlock 0) ∧ wordTrap op { f0 with imm := 77 } helperThread (helperBlock 0) = none ∧ s.brk = false ∧
        { s with brk := true }.brk = true ∧ Sparse.getD s.tvec (helperBlock 0).asid 0 ≠ 0 ∧ (helperBlock 0).trapSkeins.length < 3072) ∧
    guardOf helperThread { f0 with imm := 77 } = true ∧ helperThread.mode = .user ∧ helperThread.pends = [] ∧
    (let t := { helperThread with pends := [loadPend 4 false] }; Alone (s0 t) 0 t (helperBlock 0) ∧ t.pends ≠ [] ∧ guardOf t f0 = true) ∧
    (Alone (s0 trapper) 0 trapper (helperBlock 0) ∧ trapper.mode = .trap ∧ guardOf trapper f0 = true ∧
      wordTrap .trap f0 trapper (helperBlock 0) = none) ∧
    Sparse.getD (s0 helperThread).tvec (helperBlock 0).asid 0 = 0 ∧ Op.ofCode 0xFF = none :=
  ⟨fun op ho => ⟨⟨rfl, rfl, rfl, rfl, rfl, rfl, rfl⟩, by revert op; decide, rfl, rfl, by decide, by decide⟩, by decide, rfl, rfl,
    ⟨⟨rfl, rfl, rfl, rfl, rfl, rfl, rfl⟩, nofun, by decide⟩, ⟨⟨rfl, rfl, rfl, rfl, rfl, rfl, rfl⟩, rfl, by decide, by decide⟩, rfl, by decide⟩
/-- The trap skein with its one member, and with another. -/
theorem wit_TrapReturn : allExecute [.tret] f0 trapper ∧ ({ trapper with trapSkein := none } : Thread).trapSkein = none ∧
    allExecute [.tret] f0 { trapper with trapSkein := none } ∧
    ∀ l ∈ [[0], [0, 7]], let z : TrapSkein := ⟨0, 5, (0, 0), l, 0, { Phase.empty 0 with waiting := l }⟩
      let b := { helperBlock 0 with trapSkeins := [z] }
      Executes .tret f0 (st trapper b) 0 trapper b ∧ z ∈ b.trapSkeins ∧ trapper.trapSkein = some z.num ∧ (b.trapSkeins.map (·.num)).Nodup ∧
        (∀ y ∈ b.trapSkeins, y.members ≠ []) ∧ z.members = l ∧ z.phase.waiting = l := by
  refine ⟨all_execute (by decide), rfl, all_execute (by decide), fun l hl => ⟨executes _ _ _ _ ?_, ?_⟩⟩ <;> revert l <;> decide
/-- The numbers of control registers that any privileged thread writes, and those of the trap registers. -/
def crs : List Nat := [0x000, 0x001, 0x002, 0x008, 0x009, 0x020, 0x021, 0x022, 0x023, 0x030, 0x040, 0x041, 0x050, 0x051, 0x052, 0x053, 0x054, 0x055]
theorem wit_ControlRegisters :
    (∀ n ∈ crs ++ [0x010, 0x011, 0x012, 0x013], let f := { f0 with imm := BitVec.ofNat 32 n }
      Executes .crrd { f with d := 8 } (s0 trapper) 0 trapper (helperBlock 0) ∧ Executes .crwr { f with a := ⟨.v, 4⟩ } (s0 trapper) 0 trapper (helperBlock 0) ∧
      f.imm.toNat % 4096 = n) ∧
    (∀ n ∈ crs, let f := { f0 with imm := BitVec.ofNat 32 n }
      Executes .crrd { f with d := 8 } (s0 helperThread) 0 helperThread (helperBlock 0)) ∧
    (∀ r ∈ (s0 trapper).reqs, r.tk = 0 → r.doneAt .pkg ((s0 trapper).reqOwn r) = true) ∧ (s0 trapper).serialOk 0 = true ∧
    (let s := { s0 trapper with reqs := [storing (.dram 0 false)] }
     s.serialOk 0 = false ∧ ¬(∀ r ∈ s.reqs, r.tk = 0 → r.doneAt .pkg (s.reqOwn r) = true) ∧
      Executes .crrd { f0 with d := 8 } s 0 trapper (helperBlock 0) ∧ Executes .crwr { f0 with a := ⟨.v, 4⟩ } s 0 trapper (helperBlock 0)) ∧
    (let t := { trapper with wait := .effect 3 0 }
     Executes .crwr { f0 with a := ⟨.v, 4⟩, imm := 2 } (s0 t) 0 t (helperBlock 0) ∧ t.wait = .effect 3 0 ∧ (s0 t).effectDone 3 0 = true) ∧
    allExecute [.cntrd] { f0 with d := 8, imm := 7 } helperThread ∧ (∀ id w, trapper.wait ≠ .effect id w) ∧
    (∃ s1, exec (.tvecWrite 8) (s0 trapper) = .next s1) := by
  refine ⟨fun n hn => ⟨executes _ _ _ _ ?_, executes _ _ _ _ ?_, ?_⟩, fun n hn => executes _ _ _ _ ?_, by decide, by decide,
    ⟨by decide, by decide, executesIn ⟨rfl, rfl, rfl⟩ (by decide), executesIn ⟨rfl, rfl, rfl⟩ (by decide)⟩,
    ⟨executes _ _ _ _ (by decide), rfl, by decide⟩, all_execute (by decide), nofun, _, rfl⟩
  all_goals revert n; decide
theorem wit_WritesWithEffects : (s0 helperThread).thread? 0 = some helperThread ∧
    ((List.range 16).filter (7#64).getLsbD).length ∉ [1, 2, 4, 8, 16] ∧ ((List.range 16).filter (0xFFFF#64).getLsbD).length ∈ [1, 2, 4, 8, 16] ∧
    (cached helperThread (helperBlock 0)).memOk ∧ (cached helperThread (helperBlock 0)).linesOk ∧
    ((32 : Nat) ≤ 32 ∧ (((State.reset).core 0).quotas.map (·.2)).sum + 32 ≤ 32 ∧ (32 : Nat) < 33) ∧
    ((1#64).getLsbD 0 = true ∧ (1#64).toNat / 2 ^ 16 % 2 ^ 24 = 0) ∧
    ((0x10001#64).toNat / 2 ^ 16 % 2 ^ 24 = 1 ∧ ¬(2 ^ 36 < ((State.reset).core 0).smpBase % 2 ^ 36 + 16 * ((State.reset).core 0).smpSize)) ∧
    ((State.reset).core 0).en = false :=
  ⟨rfl, by decide, by decide, rfl, linesOk_of _ rfl (by decide) (by decide), by decide, by decide, by decide, rfl⟩
theorem wit_WakesReportsAndProbes :
    (let t := { helperThread with wait := .sleep, sleepAt := 5 }
     (s0 t).thread? 0 = some t ∧ t.wait = .sleep ∧ (s0 t).clk < t.sleepAt ∧ t.sleepAt ≤ { s0 t with clk := 5 }.clk ∧ t.exited = false) ∧
    ({ helperThread with exited := true }.exited = true ∧ trapper.mode = .trap) ∧
    (let s := onCore (holding .valid) helperThread
     risingFrom 0 s.cores = true ∧ (∀ x ∈ s.cores, x.1 < 64) ∧
      (∀ r ∈ (s.core 0).dir, r.base < 32 ∧ 1 ≤ r.cnt ∧ r.cnt ≤ 32 ∧ r.gen < 2 ^ 16)) ∧
    (∀ c, (((onCore (holding .valid) helperThread).core c).dir.map (·.handle c)).Nodup) ∧
    (let t := { helperThread with wait := .seam 3 true, waitSince := 0 }
     let s := { s0 t with clk := 2 ^ 20, tvec := [(0, 4)] }
     s.thread? 0 = some t ∧ s.block? (tkBk 0) = some (helperBlock 0) ∧ t.waitSince + 2 ^ 20 ≤ s.clk ∧ (helperBlock 0).stopping = false ∧ t.pends = [] ∧
      (s.core 0).mxq = [] ∧ (helperBlock 0).savedEntries = [] ∧ Sparse.getD s.tvec 0 0 ≠ 0 ∧ (s0 t).clk < t.waitSince + 2 ^ 20) := by
  refine ⟨by decide, by decide, by decide, fun c => ?_, by decide⟩
  by_cases hc : (0 : Nat) = c
  · subst hc; decide
  · have h : (onCore (holding .valid) helperThread).core c = Core.reset := by
      simp [State.core, onCore, Sparse.getD, Sparse.get?, hc]
    rw [h]; exact List.nodup_nil
/-- A core that samples its slice 0 into a ring of 16 records at PA 4,096, of which `n` wait. -/
def sampling (n : Nat) : State :=
  { onCore { Core.reset with en := true, slmask := 1, period := 1, smpBase := 4096, smpSize := 16, smpWr := n } helperThread with
    slices := [(0, { Slice.reset with edge := 1 })] }
theorem wit_Sampler :
    (∀ n ∈ [15, 16], let s := sampling n
      Memory.wf s.mem = true ∧ (s.core 0).en = true ∧ (∀ k, k < 6 → (s.core 0).slmask.getLsbD k = decide (k = 0)) ∧ (s.slice 0 0).sampled = none ∧
        ((s.sliceThreads 0 0).filter (fun y => !y.2.1.exited)).map (·.1) = [0] ∧ (s.core 0).smpBase % 16 = 0 ∧
        (s.core 0).smpSize = 16 ∧ (s.core 0).smpRd = 0 ∧ (s.slice 0 0).edge ≠ s.clk ∧
        (∀ k, k < 16 → let a := 4096 + 16 * (n % 16)
          s.ownDram (a + k) = true ∧ s.vaultLost (a + k) = false ∧ s.unreachable 0 (a + k) = none ∧
          (s.site (paSite (a + k))).quadOk (frameOf (paOfs (a + k))) = true)) ∧
    (∀ n, (sampling n).linesOk) ∧ ((State.reset).core 0).en = false := by
  refine ⟨?_, (fun _ _ _ h => nomatch h), by decide⟩
  decide
/-- A queue with a ring of 4 entries, 2 of them waiting, and a graph of one node. -/
def aQueue : Queue := { Queue.reset with asid := 5, log2n := 2, tail := 2, head := 0, work := [none, none], gid := 7 }
/-- Memory that holds a page table of ASID 5, VA 0 up to 512 MiB at PA 0, and some bytes more. -/
def tables (m : Memory) : Memory := [(80, 1), (82, 1)] ++ m ++ [(0x10000, 1), (0x10002, 2), (0x20000, 0x1F)]
/-- That queue where the words at VA 256 are `m`. -/
def atQueue (q : Queue) (m : Memory) : State :=
  { s0 helperThread with queues := [(1, q)], graphs := [(7, [⟨[], [], 0, []⟩])], mem := tables m }
/-- A ring entry written on an idle queue and on a full one; a trigger list of one good word, a bad one, a long one, an unreadable one. -/
theorem wit_QueueRegisters :
    ((8#64).toNat / 2 ^ 32 = 0 ∧ (0x100000008#64).toNat / 2 ^ 32 ≠ 0 ∧ (0x100000008#64).getLsbD 3 = true ∧ (0x100000000#64).getLsbD 3 = false) ∧
    ((0x100010#64).toNat % 2 ^ 5 = 16 ∧ (17#64).toNat % 2 ^ 5 = 17 ∧ (aQueue.tail + 2 ^ 32 - aQueue.head) % 2 ^ 32 = 2 ∧
      (Queue.reset.tail + 2 ^ 32 - Queue.reset.head) % 2 ^ 32 = 0) ∧
    (2 ^ aQueue.log2n = 4 ∧ ((4#64).toNat % 2 ^ 32 + 2 ^ 32 - aQueue.head) % 2 ^ 32 = 4 ∧ ((5#64).toNat % 2 ^ 32 + 2 ^ 32 - aQueue.head) % 2 ^ 32 = 5 ∧
      ((1#64).toNat % 2 ^ 32 + 2 ^ 32 - aQueue.head) % 2 ^ 32 = 1) ∧
    (Queue.reset.gid = 0xFFFF ∧ aQueue.gid ≠ 0xFFFF ∧ (aQueue.work.filter (·.isSome)).length < 255 ∧
      (List.replicate 255 (some [(0, 0, 0)])).length = 255) ∧
    (atQueue { aQueue with asid := 6 } []).readVa 6 256 8 = none ∧
    (let s := atQueue aQueue [(256, 1)]
     (s.queue 1).gid = 7 ∧ (Sparse.getD s.graphs (s.queue 1).gid []).length = 1 ∧
      (s.readVa 5 256 8).map leNat = some 1 ∧ (s.readVa 5 264 8).map leNat = some 0) ∧
    (let s := atQueue aQueue [(256, 1), (268, 1)]
     (s.readVa 5 256 8).map leNat = some 1 ∧ (s.readVa 5 264 8).map leNat = some (2 ^ 32)) ∧
    ((atQueue aQueue [(256, 1), (257, 16)]).readVa 5 256 8).map leNat = some 4097 := by
  refine ⟨by decide, by decide, by decide, ⟨by decide, by decide, by decide, List.length_replicate⟩, by decide, by decide, by decide, by decide⟩
/-- A list of addresses that ends where nothing is mapped. -/
theorem wit_QueueRegisters_unreadable :
    let s := atQueue aQueue [(0x1FF0, 1)]
    (s.readVa 5 (2 ^ 29 - 8) 8).map leNat = some 0 ∧ s.readVa 5 (2 ^ 29) 8 = none := by decide
/-- The 128 bytes of a launch descriptor: one block of one thread with 128 registers, with the fields besides. -/
def descBytes (fs : List (Nat × Nat)) : List Byte := leBytes 128 ((fs.map (fun x => x.2 * 256 ^ x.1)).sum + 0x01080001 * 256 ^ 60)
/-- A launch of queue 1, with COMPL. -/
def aLaunch (compl : Nat) : Launch :=
  { id := 9, queue := 1, node := none, seq := 0, ref := 1024, asid := 5, bytes := descBytes [(16, compl)], desc := parseDesc (descBytes [(16, compl)])
    consts := List.replicate 64 0, next := 0, ended := [], lost := 0, redo := [], tries := [], born := [], unplaceable := false, failed := false
    doubleFault := false, skipped := false, invalid := false, lostBlks := [] }
/-- A queue whose ring at VA 8,192 names the descriptor at VA 1,024. -/
def ringQueue : Queue := { aQueue with base := 8192, en := true, work := [none] }
def ringState : State := atQueue ringQueue [(1084, 1), (1086, 8), (1087, 1), (8193, 4)]
/-- A graph node, and a run of it. -/
def aNode (succs : List Nat) : GraphNode := ⟨descBytes [], List.replicate 64 0, 0, succs⟩
def runState (g : List GraphNode) : State :=
  { atQueue { ringQueue with work := [some (7, [(0, 1, 7)])] } [] with graphs := [(7, g)], runs := [(3, ⟨3, 1, 7, g.map (fun _ => .waiting)⟩)] }
/-- The image of a graph of one node, which names `preds` predecessors. -/
def image (preds : Nat) : List Byte := leBytes 16 1 ++ descBytes [] ++ List.replicate 256 0 ++ leBytes 8 preds
theorem wit_LaunchesBeginAndComplete_begin :
    let s := ringState
    let x := s.queue 1
    x.work = [none] ∧ x.en = true ∧ x.current = none ∧ x.run = none ∧ x.head % 2 ^ x.log2n = 0 ∧
      (s.readVa x.asid (x.base + 8 * 0) 8).map leNat = some 1024 ∧ 1024 % 128 = 0 ∧
      (s.readVa x.asid 1024 128).map (fun bs =>
        let d := parseDesc bs
        (d.formOk (leNat (bs.take 8)) && (s.readVa x.asid d.const 256).isSome && decide (d.compl = 0) && !d.affinity)) = some true := by
  decide
theorem wit_LaunchesBeginAndComplete_complete :
    (∀ compl ∈ [0, 256], ∀ e ∈ [[], [0]], let l := { aLaunch compl with ended := e }
      let s := { ringState with launches := [(9, l)] }
      s.launch? l.id = some l ∧ l.node = none ∧ Memory.wf s.mem = true ∧ s.lines = [] ∧ l.redo = [] ∧ (∀ c ∈ s.blocks, c.2.launch ≠ l.id) ∧ s.saved = [] ∧
        l.desc.nblk = 1 ∧ l.desc.compl = compl ∧ l.desc.compl % 16 = 0 ∧ l.invalid = false) ∧
    (ringState.schedPa 5 256 true = some (256, false) ∧ ringState.ownDram 256 = true ∧ ringState.vaultLost 256 = false ∧
      (ringState.site (paSite 256)).quadOk (frameOf (paOfs 256)) = true ∧ ringState.unreachable (1 / 512) 256 = none) := by
  refine ⟨?_, by decide⟩
  intro compl hc e he
  refine ⟨?_, ?_⟩ <;> revert e compl <;> decide
theorem wit_Graphs :
    (let s := runState [aNode []]
     let x := s.queue 1
     x.work = [some (7, [(0, 1, 7)])] ∧ x.en = true ∧ x.current = none ∧ x.run = none ∧ Sparse.getD s.graphs x.gid [] ≠ [] ∧
      (∀ n ∈ Sparse.getD s.graphs x.gid [], n.consts.length = 64) ∧
      Sparse.get? s.runs 3 = some ⟨3, 1, 7, [.waiting]⟩ ∧ (parseDesc (aNode []).desc).formOk (leNat ((aNode []).desc.take 8)) = true ∧
      (parseDesc (aNode []).desc).compl = 0 ∧ (parseDesc (aNode []).desc).affinity = false ∧ s.cores = []) ∧
    (let s := runState [aNode [1], aNode []]
     Sparse.get? s.runs 3 = some ⟨3, 1, 7, [.waiting, .waiting]⟩ ∧ (Sparse.getD s.graphs 7 [])[0]? = some (aNode [1]) ∧ 1 ∈ (aNode [1]).succs) ∧
    (State.reset.graphFault 3 (image 0) = none ∧ (State.reset.graphFault 3 (image 1)).isSome = true ∧ leNat ((image 0).take 2) = 1) := by
  refine ⟨by decide, by decide, by decide⟩
/-- Launch 9 alone in queue 1. -/
def offering : State := { State.reset with queues := [(1, { Queue.reset with en := true })], launches := [(9, aLaunch 0)] }
/-- A core whose launch-table entry 0 is valid, and bind records as software writes them. -/
def bindCore (r : Sparse BindRecord) : Core :=
  { Core.reset with ltvalid := 1, launches := [(0, (aLaunch 0).ltBytes)], records := r }
def word0 (state ltag slotb : Nat) : DWord := recordWord0 state ltag slotb 0 0 1 0 0
theorem wit_BlocksStart :
    (offering.nextWork = some (aLaunch 0, ⟨9, [(0, none)]⟩, 0) ∧ offering.fitSite (aLaunch 0) ⟨9, [(0, none)]⟩ [] [] 0 = some [⟨0, 0, 0, 0, 0, 0, 0⟩] ∧
      offering.launch? 9 = some (aLaunch 0) ∧ (aLaunch 0).bytes.length = 128 ∧ (aLaunch 0).consts.length = 64 ∧ (aLaunch 0).redo = [] ∧
      (aLaunch 0).desc.quilt = 1 ∧ (aLaunch 0).desc.ntid ≤ 3072 ∧ (aLaunch 0).desc.acc < 16 ∧ (aLaunch 0).desc.scratch < 2 ^ 22 ∧
      (offering.site (0 / 4)).applied ≠ 7 ∧ offering.block? (bkOf 0 0) = none) ∧
    (∀ w, offering.nextWork = some w → w.1.id ≠ 8) ∧
    (let s := { State.reset with cores := [(0, bindCore [(1, ⟨word0 2 0 4, 0, 0, 0⟩)])] }
     let c := s.core 0
     let r (n g b : Nat) : BindRecord := { c.record 0 with w0 := word0 n g b }
     (r 0 0 0).state = 0 ∧ (r 3 0 0).state = 3 ∧ (∀ n ∈ [1, 2], (r n 0 0).state = n ∧ c.ltvalid.getLsbD (r n 1 0).ltag = false ∧
        c.ltvalid.getLsbD (r n 0 0).ltag = true ∧ (r n 0 0).slotb + (c.ltDesc (r n 0 0).ltag).levels ≤ 16 ∧ (r n 0 0).abase + (r n 0 0).accn ≤ 8 ∧
        (r n 0 0).spbase + (r n 0 0).spsize ≤ 16384 ∧ (r n 0 0).reservedSet = false ∧ s.block? (bkOf 0 0) = none) ∧
      s.recordFree 0 0 (r 2 0 0) 16 = false ∧ ({ s with cores := [(0, bindCore [])] }).recordFree 0 0 (r 2 0 0) 1 = true ∧ (r 2 0 0).rst = false ∧
      (c.ltDesc 0).ntid ≤ 3072) ∧
    ((s0 helperThread).block? (bkOf 0 0)).isSome = true := by
  have h : offering.nextWork = some (aLaunch 0, ⟨9, [(0, none)]⟩, 0) := by decide
  refine ⟨⟨h, by decide, by decide, by decide +kernel, by decide, by decide, by decide, by decide, by decide, by decide, by decide, by decide⟩, ?_, by decide, by decide⟩
  rw [h]
  rintro w ⟨⟩
  decide
/-- Core 0 whose whole scratchpad block 8 of queue 1 holds, and launch 9 of queue 2 that may run on that core alone. -/
def taken (b : Block) : State :=
  let l : Launch :=
    { aLaunch 0 with
      queue := 2, desc := { (aLaunch 0).desc with affinity := true, scratch := 128 }, bytes := descBytes [(36, 128)] }
  { State.reset with
    clk := 4200000, queues := [(1, { Queue.reset with en := true, quantum := some 0 }), (2, { Queue.reset with en := true })]
    launches := [(8, { aLaunch 0 with id := 8, next := 1 }), (9, l)], blocks := [(0, b)], threads := [(0, helperThread)]
    cores := [(0, { bindCore [(0, ⟨word0 2 0 0, BitVec.ofNat 64 (16384 * 2 ^ 32), 0, 0⟩)] with dir := [resident .valid] })]
    quiltSince := [(9 * 2 ^ 32, 0)], sites := [(0, { Site.reset with reservation := some ⟨9, 0, 0, false, false⟩ })] }
def b8 : Block := { helperBlock 0 with launch := 8 }
/-- The unit that waits. -/
def unit9 : WorkUnit := ⟨9, [(0, none)]⟩
theorem wit_BlocksEndAndRoomIsMade_ends :
    (∀ df : Bool, ∀ dis : Bool, let b := { b8 with doubleFault := df, discard := dis }
      let s := taken b
      s.block? (bkOf 0 0) = some b ∧ b.core = 0 ∧ b.bslot = 0 ∧ (s.launch? b.launch).isSome = true ∧ s.stopReady 0 b = true ∧
        { s with reqs := [storing (.dram 0 false)] }.stopReady 0 b = false) ∧
    (∀ x : Bool, let s := { taken b8 with threads := [(0, { helperThread with exited := x })] }
      ((∀ c ∈ s.threads, tkBk c.1 = 0 → c.2.exited = true) ↔ x = true) ∧ (∀ r ∈ s.reqs, tkBk r.tk ≠ 0) ∧ s.sites.map (fun x => x.2.running) = [[]] ∧
        (s.core 0).queues = [] ∧ b8.savedCmds = [] ∧ b8.savedEntries = [] ∧ (s.core 0).mxq = []) ∧
    (let b := { b8 with stopping := true }
     let s := taken b
     b.stopping = true ∧ b.halted = false ∧ b.doubleFault = false ∧ b.discard = false ∧ s.stopReady 0 b = true ∧ s.saved = [] ∧
       (s.core 0).fenced = false ∧ s.slices = [] ∧ ∀ c ∈ s.threads, tkBk c.1 = 0 → c.2.pends = []) := by
  refine ⟨by decide, by decide, by decide⟩
theorem wit_BlocksEndAndRoomIsMade_room :
    (let s := taken b8
     risingFrom 0 s.blocks = true ∧ (s.queue 1).quantum = some 0 ∧ (s.queue 2).quantum = none ∧
      (s.waitingFor 2 = none) ∧ ∃ l, s.waitingFor 1 = some (l, unit9) ∧ (s.siteOrder l unit9).head? = some 0 ∧
      s.takeGroups l unit9 0 (s.givenUp 0) (s.groupsOn 0 (fun b => match s.launch? b.launch with | some k => k.queue == 1 | none => false)) =
        some [[(0, b8)]]) ∧
    (let b := { b8 with pause := some 5 }
     (taken b).block? (bkOf 0 0) = some b ∧ b.pause = some 5 ∧ 5 ≤ (taken b).clk ∧ { taken b with clk := 4 }.clk < 5) ∧
    (let s := taken b8
     ∃ l, s.quiltUnit 9 0 = some (l, unit9) ∧ Sparse.get? s.quiltSince (9 * 2 ^ 32 + 0) = some 0 ∧ (s.siteOrder l unit9).head? = some 0 ∧
      0 + 420000 ≤ s.clk ∧ (s.site 0).reservation = some ⟨9, 0, 0, false, false⟩ ∧ ({ s with sites := [] }.site 0).reservation = none ∧
      s.fitSite l unit9 [] [] 0 = none ∧ (s.groupsOn 0 (fun _ => true)) = [[(0, b8)]] ∧ s.movable 0 b8 = true ∧ b8.since + 2100000 ≤ s.clk ∧
      b8.skippedAt = none ∧ s.copiesOf 0 b8 = false ∧
      (s.modCore 0 (fun c => { c with queues := [(0, [cmdOf 0 [(0, 1)]])] })).copiesOf 0 b8 = true ∧
      (s.blocks.all (fun c => !(c.2.stopping || c.2.pause.isSome)) = true) ∧ s.movable 0 { b8 with desc := { b8.desc with affinity := true } } = false) := by
  refine ⟨⟨by decide, by decide, by decide, by decide, _, rfl, ?_, ?_⟩, by decide, _, rfl, ?_⟩
  all_goals decide
/-- Frame 0 of a site is interleaved; a byte makes it vault-local, replicated in place or names a mode that is refused. -/
theorem wit_DeviceRegisters :
    (let s := cached helperThread (helperBlock 0)
     s.memOk ∧ s.linesOk ∧ (s.site 0).modes = []) ∧
    ((0x04#8).extractLsb' 0 4 = 4 ∧ (4 : BitVec 4).toNat ∈ [0, 1, 4, 5, 6, 7] ∧ (2 : BitVec 4).toNat ∉ [0, 1, 4, 5, 6, 7]) ∧
    ((aLaunch 0).ltBytes.length = 384 ∧ ((onCore (bindCore []) helperThread).core 0).ltBytes 0 = (aLaunch 0).ltBytes) ∧
    ([1, 2].length = 2 ∧ 2 ∈ [1, 2, 4] ∧ 0x200006 % 2 = 0 ∧ ¬(0x100000 ≤ paOfs 0x200006 ∧ paOfs 0x200006 < 0x104000)) ∧
    (∃ u, exec (.deviceRegisterWrite false (2 ^ 40 + 0x330000) (leBytes 8 0)) (s0 helperThread) = .next u) := by
  refine ⟨⟨rfl, linesOk_of _ rfl (by decide) (by decide), rfl⟩, by decide, ⟨by decide +kernel, rfl⟩, ⟨by decide, by decide, by decide, by decide⟩, _, rfl⟩
/-- Device 900 may do all, device 901 nothing; bytes at PA 124 and a register that the filter closes and one that it does not. -/
def filtered : State := { cached helperThread (helperBlock 0) with filter := [(900, 7)] }
theorem wit_InboundAccesses :
    (filtered.memOk ∧ filtered.linesOk ∧ Sparse.getD filtered.filter 900 0 = 7 ∧ Sparse.getD filtered.filter 901 0 = 0) ∧
    (∀ a ∈ [Action.load 4, .store [1, 2, 3, 4], .rmw 0 32 5 true, .rmw 0 32 5 false, .cas 4 0 9],
      filtered.ownDram 124 = true ∧ 124 % 128 + a.len ≤ 128 ∧ (filtered.site (paSite 124)).quadOk (frameOf (paOfs 124)) = true ∧
      filtered.vaultLost 124 = false ∧ filtered.poisonIn 124 a.len = none ∧ 124 / 2 ^ 40 % 4 = 0) ∧
    redOp 0 32 0 5 = (5, 0) := by
  refine ⟨⟨rfl, linesOk_of _ rfl (by decide) (by decide), by decide, by decide⟩, by decide, by decide⟩
/-- A queue pair of ASID 5 whose region, receive buffer and completion queue lie below 64 KiB. -/
def aQp : Qp := ⟨5, 0x400, 0x100, [(0x480, 16)], 0x800, 0⟩
def paired : State := { ringState with qps := [(3, aQp)] }
theorem wit_ScaleOut :
    (paired.memOk ∧ paired.linesOk ∧ Sparse.get? paired.qps 3 = some aQp ∧ Sparse.get? paired.qps 4 = none) ∧
    (∀ x ∈ [(0x400, 4), (0x480, 4), (0x800, 16), (0x408, 8)], x.1 % 128 + x.2 ≤ 128 ∧ paired.schedPa 5 x.1 true = some (x.1, false) ∧
      paired.ownDram x.1 = true ∧ paired.vaultLost x.1 = false ∧ (paired.site (paSite x.1)).quadOk (frameOf (paOfs x.1)) = true ∧
      paired.unreachable 0 x.1 = none) ∧
    (∀ va ∈ [0x400, 0x480], (paired.writeVa 5 va [1, 2, 3, 4]).schedPa 5 0x800 true = some (0x800, false)) ∧
    (aQp.regionVa ≤ 0x400 ∧ 0x400 + 4 ≤ aQp.regionVa + aQp.regionLen ∧ ¬(aQp.regionVa ≤ 0x4FE ∧ 0x4FE + 4 ≤ aQp.regionVa + aQp.regionLen)) ∧
    (paired.readVa 5 0x400 4).isSome = true ∧ { aQp with recvVa := [] }.recvVa = [] := by
  refine ⟨⟨rfl, (fun _ _ h => nomatch h), rfl, rfl⟩, by decide, by decide +kernel, ⟨by decide, by decide, by decide +kernel⟩, by decide, rfl⟩
/-- A record of 256 bytes for a thread in user mode, and one for a thread of trap skein 0. -/
def recordOf (trap : Bool) : List Byte := leBytes 256 ((if trap then 2 ^ 63 else 0) + 0x80 + 1 * 256 ^ 32)
theorem wit_Debugger :
    (∀ h : Bool, let b := { helperBlock 0 with halted := h }; (st helperThread b).block? (bkOf 0 0) = some b ∧ b.halted = h ∧
      risingFrom 0 (st helperThread b).threads = true) ∧
    (let t := { helperThread with wait := .halted }
     (s0 t).thread? 0 = some t ∧ t.wait = .halted ∧ t.depth ≤ 1024 ∧ t.pst < 2 ^ 32 ∧ t.sleepAt < 2 ^ 64 ∧ t.exited = false ∧ t.trapSkein = none) ∧
    ((recordOf false).length = 256 ∧ (leNat ((recordOf false).take 8)).testBit 63 = false ∧ leNat (((recordOf false).drop 32).take 4) = 1) ∧
    (let b := { helperBlock 0 with trapSkeins := [⟨0, 0, (0, 0), [0], 0, Phase.empty 0⟩], halted := true }
     trapper.trapSkein = some (leNat (((recordOf true).drop 52).take 2)) ∧ (leNat ((recordOf true).take 8)).testBit 63 = true ∧
      b.trapSkeins.any (fun z => z.num == 0) = true ∧ b.halted = true) ∧
    (¬(helperThread.wait = .halted ∨ (helperBlock 0).halted = true)) ∧
    ((List.replicate 32 (0 : Byte)).length = 32 ∧ State.reset.devno < 2 ^ 16 ∧ State.reset.starts < 2 ^ 32 ∧ State.reset.measure.length ≤ 16) := by
  refine ⟨by decide, by decide, ⟨by decide +kernel, by decide +kernel, by decide +kernel⟩, ⟨by decide +kernel, by decide +kernel, by decide, by decide⟩,
    by decide, by decide⟩
/-- A core that is not in storm and one in its fourth interval, with and without a ceiling. -/
theorem wit_PowerController :
    let c : Core := { Core.reset with droop := true, halvedFor := 1050, stormRun := 3, ceiling := some (8, 100) }
    (1050 ≤ c.halvedFor ∧ 4 ≤ c.stormRun + 1 ∧ ¬(1050 ≤ Core.reset.halvedFor) ∧ Core.reset.ceiling = none ∧ Core.reset.det = false ∧
      { Core.reset with det := true }.det = true) ∧
    (c.droop = true ∧ c.droopSeen + max c.drhold 100 * 21 / 10 = 4200 ∧ Core.reset.droop = false) := by decide
theorem wit_ThrottleStates :
    (State.reset.clk % 210000 = 0 ∧ (State.reset.site 0).fenced = false ∧ (State.reset.site 0).applied ≤ 7 ∧ { State.reset with clk := 1 }.clk % 210000 ≠ 0) ∧
    ((10500 : Int) ≤ 10500 ∧ (10500 : Int) < 10501) ∧ (List.replicate 36 (2500 : Int)).length = 36 ∧
    (State.reset.devno ∈ [0, 3] ∧ State.reset.devno ∉ [3] ∧ State.reset.group = none) ∧
    (∀ l ∈ [[], [⟨3, 0, none, 0⟩, ⟨4, 2, some 5, 0⟩], [(⟨3, 0, none, 2⟩ : Member)]],
      let s := { State.reset with group := some ⟨1, l, 0, 0, 0, 0, 2, 1⟩ }
      s.group = some ⟨1, l, 0, 0, 0, 0, 2, 1⟩ ∧ (0 : Int) ≤ s.clk ∧ s.roundOpen ⟨1, l, 0, 0, 0, 210000, 2, 1⟩ = true ∧ (l.map (·.dev)).Nodup) := by decide
/-- A call that began a long time ago. -/
theorem wit_FailedUnits :
    ((0, 5) ∉ (State.reset.site 0).linkFailed ∧ State.reset.hemFailed = [] ∧ { State.reset with hemFailed := [3] }.hemFailed = [3] ∧ (3 : Nat) ≠ 7) ∧
    ((State.reset.site 0).sliceFenced.getLsbD 5 = false ∧ ({ Site.reset with sliceFenced := 0x20 } : Site).sliceFenced.getLsbD 5 = true ∧
      risingFrom 0 (cached helperThread (helperBlock 0)).lines = true ∧ (cached helperThread (helperBlock 0)).linesOk) ∧
    (Sparse.getD (State.reset.site 0).chanFailed 2 0 = 0 ∧ Sparse.getD ({ Site.reset with chanFailed := [(2, 1)] } : Site).chanFailed 2 0 = 1) ∧
    (let s := { landing (running 3 [] none) with clk := 2 ^ 24 + 1 }
     running 3 [] none ∈ (s.site 0).running ∧ (running 3 [] none).engine = 2 + 1 ∧ (running 3 [] none).started + 2 ^ 24 < s.clk ∧
      (running 3 [] none).core / 4 = 0 ∧ ∀ y ∈ (s.site 0).running, y.engine = 2 + 1 → y = running 3 [] none) := by
  refine ⟨by decide, ⟨by decide, by decide, by decide, linesOk_of _ rfl (by decide) (by decide)⟩, by decide, by decide⟩
theorem wit_WindowsAndPorts :
    (let s := { flying (access (.load 4) (.dram (3 * 2 ^ 42) false) .hem false) with routes := [(3, 2)] }
     ∀ r ∈ s.reqs, r.place = .dram (3 * 2 ^ 42) false ∧ paDev (3 * 2 ^ 42) = 3 ∧ Sparse.getD s.routes 3 0 ≠ 1) ∧
    (paDev (3 * 2 ^ 42) ≠ State.reset.devno ∧ Sparse.getD State.reset.routes (paDev (3 * 2 ^ 42)) 0 = 0) := by decide
/-- What a start may find: nothing wrong, one unit of each kind, a failed step, another image, site 0. -/
def found (bad : List StartUnit) : StartInfo := ⟨7, [], [6], [5], [(3, 2)], bad, none, ⟨[], 0⟩⟩
/-- The state after a cold start that measured no image. -/
def noImages : State := { State.reset with measure := [] }
theorem wit_Starts :
    (∀ bad ∈ [[], [StartUnit.core 5], [.l2 1 3], [.vault 1 2], [.near 1 2], [.att 1], [.site 1], [.channel 1 2], [.copy 1 0], [.matrix 5]],
      State.reset.failedStarts < 3 ∧ (found bad).failedStep = none ∧ StartUnit.site 0 ∉ (found bad).bad ∧ (found bad).images.map Image.digest = noImages.measure ∧ ∀ m ∈ (found bad).images, m.verifies = true) ∧
    (State.reset.memOk ∧ State.reset.linesOk ∧ State.reset.recovery = false ∧ { State.reset with recovery := true }.recovery = true) ∧
    (({ found [] with failedStep := some (1, 4) } : StartInfo).failedStep = some (1, 4) ∧ StartUnit.site 0 ∈ (found [.site 0]).bad ∧
      (found []).images.map Image.digest ≠ State.reset.measure) ∧
    3 ≤ { State.reset with failedStarts := 3 }.failedStarts :=
  ⟨by decide, ⟨rfl, (fun _ _ h => nomatch h), rfl, rfl⟩, by decide, by decide⟩

/-! ### More forms of the hypotheses: flags in flight, stitches, ports, stops and images -/

/-- Thread 1 waits for room in the matrix queue with the stitch, or nobody does. -/
theorem wit_GuardsAndRejections_stitch :
    (let s := { s0 helperThread with threads := [(0, helperThread), (1, { helperThread with wait := .matrixRoom 0 })] }
     Alone s 0 helperThread (helperBlock 0) ∧ guardOf helperThread { f2 with gp := 1 } = false ∧
      (s.threadsOf (tkBk 0)).any (fun c => c.1 != 0 && !c.2.exited && c.2.wait == .matrixRoom s.cur.id) = true) ∧
    ((s0 helperThread).threadsOf (tkBk 0)).any (fun c => c.1 != 0 && !c.2.exited && c.2.wait == .matrixRoom (s0 helperThread).cur.id) = false :=
  ⟨⟨⟨rfl, rfl, rfl, rfl, rfl, rfl, rfl⟩, by decide, by decide⟩, by decide⟩
/-- A thread whose page the TLB holds has no fetch to wait for. -/
theorem wit_SliceCycles_fetch :
    (mapped (helperPage 0) helperThread (helperBlock 0)).fetchMiss 0 helperThread (helperBlock 0) = none := by decide
/-- A branch of the issue, resolved already, stands at the thread's PC or not. -/
def joined (pc : BitVec 56) : State := { s0 helperThread with branches := [⟨3, 0, 0, 0, pc, 0, 0, none, 0, [(32, 24, true)], 0⟩] }
theorem wit_JumpsCallsAndTheirGuards_branch :
    ((joined 0).branches.find? (fun y => y.issue == (joined 0).cur.id && y.mask == 0 && y.pc == helperThread.pc)).isSome = true ∧
    ((joined 12).branches.find? (fun y => y.issue == (joined 12).cur.id && y.mask == 0 && y.pc == helperThread.pc)).isSome = false ∧
    Executes .jmpi { f0 with gp := 1, gn := true, a := ⟨.v, 4⟩ } (joined 0) 0 helperThread (helperBlock 0) ∧
    guardOf helperThread { f0 with gp := 1 } = false := by
  refine ⟨by decide, by decide, executesIn ⟨rfl, rfl, rfl⟩ (by decide), by decide⟩
/-- A result of a function that is still to set a flag; the flag of one that is past. -/
def flagged : Thread :=
  { helperThread with pends := [{ loadPend 4 false with op := .frcp, kind := .func, flags := 8, due := 9 }], flagsDue := [(9, .skein 0, 2)] }
theorem wit_BarriersAndPhases_flags : (s0 helperThread).flagsSet 0 helperThread = true ∧ (s0 flagged).flagsSet 0 flagged = false ∧
    (∀ c ∈ colls, Executes c.1 c.2 (s0 flagged) 0 flagged (helperBlock 0)) ∧ trapper.trapSkein.isSome = true :=
  ⟨by decide, by decide, colls_execute _ _ (by decide), rfl⟩
theorem wit_SkeinsAndStickyFlags_due : (s0 flagged).thread? 0 = some flagged ∧ (s0 flagged).block? (tkBk 0) = some (helperBlock 0) := ⟨rfl, rfl⟩
/-- An access to another site at the mesh, and one whose domain has moved on. -/
theorem wit_HomeSliceAndScratchpadAccesses_sent :
    (∀ a ∈ [Action.store [1], .load 4], let r := access a (.dram (2 ^ 36) false) .mesh true
      (flying r).reqs.find? (fun r => r.id = 1) = some r ∧ (flying r).mayPerform r = true ∧ (flying r).ownDram (2 ^ 36) = true ∧
        paSite (2 ^ 36) ≠ tkCore r.tk / 4 ∧ Memory.wf (flying r).mem = true) ∧
    (∀ g : Fin 2, let r := { access (.load 4) (.dram 124 false) .mesh false with gen := g.val }
      (flying r).reqs.find? (fun r => r.id = 1) = some r ∧ (flying r).mayPerform r = true ∧ (flying r).ownDram 124 = true ∧
        (r.gen = ((flying r).site (paSite 124)).gen r.dom ↔ g.val = 0) ∧ r.pend.isSome = true) := by
  refine ⟨?_, ?_⟩
  · decide
  · intro g; revert g; decide
/-- A thread that waits for the walk of its data; a register that a later instruction of the window writes at once or in cycle 9. -/
theorem wit_ValuesAndAccessesInFlight_over :
    (let s := { s0 { helperThread with wait := .dataWalk 3 } with walks := [⟨3, 0, 5, 1, 0⟩] }
     s.memOk ∧ s.linesOk ∧ s.walks.find? (fun w => w.id = 3) = some ⟨3, 0, 5, 1, 0⟩ ∧
      s.thread? 0 = some { helperThread with wait := .dataWalk 3 }) ∧
    (∀ n ∈ [0, 9], let p := { loadPend 4 false with ready := true, vals := [(8, 99)], overAt := [(8, n)] }
      let t := { helperThread with pends := [p] }
      (s0 t).thread? 0 = some t ∧ t.pends.find? (fun p => p.id = 7) = some p ∧ (Sparse.getD p.overAt 8 0 ≤ (s0 t).now 0 ↔ n = 0)) :=
  ⟨⟨rfl, (fun _ _ h => nomatch h), by decide, by decide⟩, by decide⟩
/-- A core whose array an MMA on residency 1 holds that has not begun its first step; an earlier entry may stand before it. -/
def waitingCore (g : RsState) (before : List MxEntry) : Core :=
  { holding g with mxq := before ++ [mmaEntry false], array := some (mmaEntry false).id }
/-- The fill of the residency's first slot, queued before. -/
def fillBefore : MxEntry := { mkEntry (s0 (thr [(6, 0x10001)])) .rsfill { f0 with b := ⟨.v, 6⟩ } 0 (thr [(6, 0x10001)]) (helperBlock 0) with id := 77, tk := 0 }
theorem wit_KStepsAndTheArray_begin :
    (∀ g ∈ [RsState.valid, .stale], let s := onCore (waitingCore g []) helperThread
      s.onArray 0 = some (mmaEntry false, helperBlock 0, resident g) ∧ (mmaEntry false).stepping = false ∧ (mmaEntry false).tested = false ∧
        ((s.core 0).mxq.map (·.id)).Nodup ∧ (helperBlock 0).stopping = false ∧ (s.site (0 / 4)).applied ≠ 7 ∧
        (s.core 0).stepWaits (mmaEntry false) (resident g) = false ∧ s.thread? (mmaEntry false).tk = some helperThread ∧
        (mmaEntry false).staleOk = false ∧ (resident g).base + (resident g).cnt ≤ 32) ∧
    (let s := { onCore (waitingCore .valid []) helperThread with sites := [(0, { Site.reset with applied := 7 })] }
     s.onArray 0 = some (mmaEntry false, helperBlock 0, resident .valid) ∧ (s.site (0 / 4)).applied = 7) ∧
    (let s := onCore (waitingCore .valid [fillBefore]) helperThread
     s.onArray 0 = some (mmaEntry false, helperBlock 0, resident .valid) ∧ (s.core 0).stepWaits (mmaEntry false) (resident .valid) = true ∧
      ((s.core 0).mxq.map (·.id)).Nodup) := by decide
/-- Another block of the core has commands that a restore brought back. -/
theorem wit_Push_saved :
    (s0 helperThread).blocks.any (fun x => x.2.core == 0 && x.2.savedCmds.any (fun c => c.qn == 6)) = false ∧
    ({ s0 helperThread with blocks := [(0, helperBlock 0), (1, { helperBlock 0 with bslot := 1, savedCmds := [cmdOf 6 []] })] }).blocks.any
      (fun x => x.2.core == 0 && x.2.savedCmds.any (fun c => c.qn == 6)) = true := by decide
/-- The sampler of a core that is off, and of one that goes off in this cycle. -/
theorem wit_Sampler_off : ((State.reset).core 0).offAt ≠ some State.reset.clk ∧
    (let s := onCore { Core.reset with offAt := some 0, slmask := 1 } helperThread
     (s.core 0).en = false ∧ (s.core 0).offAt = some s.clk) := by decide
/-- Queue 1 bound to a graph that is not there, and a core with a RUN record. -/
theorem wit_QueueRegisters_graph :
    (Sparse.getD (atQueue aQueue []).graphs ((9#64).toNat % 2 ^ 16) [] = [] ∧ ∀ c ∈ (atQueue aQueue []).cores, c.2.pre = []) ∧
    (let s := { atQueue aQueue [] with cores := [(0, { Core.reset with records := [(3, ⟨recordWord0 2 0 0 0 0 1 0 0, 0, 0, 0⟩)] })] }
     ((s.core 0).record 3).state = 2 ∧ ∀ x ∈ (s.core 0).pre, x.2.1 = 1 → ((s.core 0).record x.1).state ≠ 2) := by decide
theorem wit_Graphs_upload :
    (∀ q ∈ State.reset.queues, q.2.gid ≠ 3) ∧ ((image 0).length = 408 ∧ (image 0).length ≤ 2 ^ 24) ∧
    (let s := runState [aNode []]
     s.queue 1 = { s.queue 1 with work := [some (7, [(0, 1, 7)])] } ∧ Sparse.getD s.graphs 7 [] ≠ [] ∧
      (∀ p ∈ [(0, 1, 7)], p.1 < (Sparse.getD s.graphs 7 []).length ∧ p.2.1 < 64) ∧
      (∀ c ∈ s.cores, ∀ y ∈ c.2.records, y.2.state ≠ 1) ∧ (s.queue 1).en = true) := by
  refine ⟨by decide, ⟨by decide +kernel, by decide +kernel⟩, by decide⟩
theorem wit_BlocksStart_lines : offering.memOk ∧ offering.linesOk := ⟨rfl, (fun _ _ h => nomatch h)⟩
/-- The next image lies in one of the areas. -/
theorem areaFrom_is (s : State) (k fuel : Nat) : ∃ j, s.areaFrom k fuel = s.ctxAt j := by
  induction fuel generalizing k with
  | zero => exact ⟨0, rfl⟩
  | succ n ih =>
    simp only [State.areaFrom]
    split
    · exact ⟨k, rfl⟩
    · exact ih _
/-- A state with no failed unit has its next image in DRAM that is whole, wherever firmware puts it. -/
theorem ctx_ok : let s := taken { b8 with stopping := true }
    s.memOk ∧ s.linesOk ∧ s.ownDram s.nextCtx = true ∧ (∀ a, s.vaultLost a = false) ∧
      (s.site (paSite s.nextCtx)).quadOk (frameOf (paOfs s.nextCtx)) = true ∧ s.unreachable (0 / 4) s.nextCtx = none ∧
      ∀ x ∈ s.saved, x.ctx ≠ s.nextCtx := by
  intro s
  have hc : ∃ i j, i < 2 ^ 4 ∧ j < 2 ^ 13 ∧ s.nextCtx = paOf 0 0 i (j * 2 ^ 23) := by
    obtain ⟨k, h⟩ : ∃ k, s.nextCtx = s.ctxAt k := areaFrom_is s _ _
    refine ⟨(Config.contextArea + k) % 2 ^ 17 / 2 ^ 13, (Config.contextArea + k) % 2 ^ 17 % 2 ^ 13, by omega, by omega, ?_⟩
    rw [h]; simp only [State.ctxAt]; rfl
  have hsite : ∀ k, (s.site k).modes = [] ∧ (s.site k).vaultFenced = 0 := by
    intro k
    by_cases h : (0 : Nat) = k
    · subst h; exact ⟨rfl, rfl⟩
    · have : s.site k = Site.reset := by simp [s, State.site, taken, Sparse.getD, Sparse.get?, h]
      rw [this]; exact ⟨rfl, rfl⟩
  have hdev : paDev s.nextCtx = 0 ∧ paSpace s.nextCtx = 0 := by
    obtain ⟨i, j, hi, hj, hc⟩ := hc
    rw [hc]; constructor <;> simp only [paOf, paDev, paSpace] <;> omega
  refine ⟨rfl, (fun _ _ h => nomatch h), ?_, ?_, ?_, ?_, fun _ h => nomatch h⟩
  · simp only [State.ownDram, hdev.1, hdev.2]; rfl
  · intro a
    simp only [State.vaultLost, (hsite _).2]
    simp
  · simp [Site.quadOk, Site.frameMode, (hsite _).1, Sparse.getD, Sparse.get?]
  · rw [State.unreachable, cutOff_whole _ rfl, hdev.1]; rfl
theorem wit_BlocksEndAndRoomIsMade_saves :
    (let b := { b8 with stopping := true }
     b.accn ≤ 8 ∧ b.desc.regs ≤ 128 ∧ b.spsize ≤ 2 ^ 21 ∧ ((taken b).threadsOf 0).length ≤ 3072 ∧ (taken b).taken = [] ∧
      ∀ c ∈ (taken b).threads, tkBk c.1 = 0 → c.2.pends = [] ∧ c.2.flagsDue = []) ∧
    (∀ n ∈ [0, 1], let c : Core := { bindCore [(0, ⟨word0 1 0 0, 0, 0, 0⟩)] with pre := if n = 0 then [] else [(0, (2, 7, 9))] }
      (c.record 0).state = 1) := by decide
/-- The ring with segments 2 and 9 failed: sites 3 to 9 are cut off from both edge dies' other side. -/
def split : State := { State.reset with hemFailed := [2, 9] }
theorem wit_DeviceRegisters_control :
    (State.reset.cutOff 15 3 = false ∧ split.cutOff 15 3 = true ∧ split.cutOff 15 0 = false ∧ split.cutOff 7 0 = true) ∧ State.reset.devno < 1024 ∧
    (0x200008 + 64 * 511 < 0x208000 ∧ ¬(0x200000 ≤ 0x208000 ∧ 0x208000 < 0x208000)) ∧
    (2 ^ 40 + 3) / 2 ^ 40 % 4 = 1 ∧ (2 ^ 40 + 2 ^ 42) / 2 ^ 42 % 1024 ≠ State.reset.devno := by decide
/-- A port of a higher number has written at PA 124 in this cycle. -/
theorem wit_InboundAccesses_ports :
    (filtered.cutOff (portSite 17) (paSite 124) = false ∧ split.cutOff (portSite 0) (paSite (3 * 2 ^ 36)) = true) ∧
    (let s := { filtered with cycleWrites := [⟨5, 0, 124, 2⟩] }
     s.memOk ∧ s.cycleWrites.any (fun w => decide (3 < w.rank ∧ w.space = 0 ∧ w.at_ ≤ 125 ∧ 125 < w.at_ + w.n)) = true ∧
      s.cycleWrites.any (fun w => decide (3 < w.rank ∧ w.space = 0 ∧ w.at_ ≤ 126 ∧ 126 < w.at_ + w.n)) = false) := by
  refine ⟨by decide, rfl, by decide, by decide⟩
theorem wit_ScaleOut_ports :
    (∀ w ∈ paired.cycleWrites, w.rank ≤ 18 + 3) ∧ paired.portReaches (18 + 3) 5 0x400 4 false = true ∧
    { paired with hemFailed := [6, 9], sites := [] }.portReaches (18 + 3) 5 0x400 4 false = false ∧
    (paired.portVa (18 + 3) 5 0x400 [1, 2, 3, 4]).schedPa 5 0x800 true = some (0x800, false) ∧ paired.cutOff 7 (paSite 0x400) = false ∧
    (0x400 + 4 ≤ 0x800 ∧ (4 : Nat) ≤ 2 ^ 31) ∧ (paired.schedPa 5 0x400 true = some (0x400, false) ∧ 0x400 % 128 + 8 ≤ 128) := by
  refine ⟨by decide, by decide, by decide, by decide +kernel, by decide, by decide, by decide⟩
/-- A block at rest, one with an access in flight, and a thread that entered its handler in this cycle. -/
def entry0 : HandlerEntry := ⟨⟨0x10, 5, 0⟩, 24, 0, 0, 0, 0, [], 0, [], [], none, 0⟩
/-- A thread of trap skein 4, whose number a record gives as 17. -/
def skeined : Block := { helperBlock 0 with trapSkeins := [⟨4, 17, (0, 0), [0], 0, Phase.empty 0⟩], halted := true, haltSent := true }
/-- A record of 256 bytes with bits of byte 39 and a trap skein. -/
def recordWith (flags tag : Nat) (trap : Bool) : List Byte :=
  leBytes 256 ((if trap then 2 ^ 63 else 0) + 0x80 + 1 * 256 ^ 32 + flags * 256 ^ 39 + tag * 256 ^ 52)
theorem wit_Debugger_rest :
    (s0 helperThread).accessStill 0 = true ∧ ({ s0 helperThread with reqs := [access (.load 4) (.dram 0 false) .mesh false] }).accessStill 0 = false ∧
    (let s := { s0 trapper with taken := [(0, entry0)] }
     s.thread? 0 = some trapper ∧ Sparse.get? s.taken 0 = some entry0 ∧ trapper.mode = .trap ∧ trapper.pendTrap = none ∧ s.accessStill 0 = true ∧
      risingFrom 0 s.threads = true ∧ (helperBlock 0).halted = false) ∧
    (let t := { helperThread with wait := .bar false 0 }
     (st t skeined).thread? 0 = some t ∧ skeined.halted = true ∧ skeined.haltSent = true ∧ t.trapSkein = none) ∧
    (let t := { trapper with trapSkein := some 4 }
     (st t skeined).thread? 0 = some t ∧ t.mode = .trap ∧ (skeined.trapSkeins.map (·.num)).Nodup ∧ (skeined.trapSkeins.map (·.tag)).Nodup ∧
      ∃ z ∈ skeined.trapSkeins, z.tag = 17 ∧ t.trapSkein = some z.num ∧ z.tag < 3072) := by
  refine ⟨by decide, by decide, by decide, by decide, rfl, rfl, by decide, by decide, _, List.mem_singleton.2 rfl, rfl, rfl, by decide⟩
theorem wit_Debugger_records : (∀ n ∈ [0, 1, 2, 4, 8], (recordWith n 17 true).length = 256 ∧ leNat (((recordWith n 17 true).drop 39).take 1) = n ∧
      leNat (((recordWith n 17 true).drop 52).take 2) = 17 ∧ (leNat ((recordWith n 17 true).take 8)).testBit 63 = true) := by decide +kernel
/-- A member whose value has not come, with 20 µs to the boundary; the boundary itself. -/
theorem wit_ThrottleStates_time :
    let g : Group := ⟨1, [⟨3, 0, none, 0⟩, ⟨4, 2, some 5, 0⟩], 0, 0, 0, 42000, 0, 3⟩
    ((0 : Int) + g.offset + g.error + 42000 ≤ g.next ∧ ¬((0 : Int) + g.offset + g.error + 42001 ≤ g.next)) ∧
    (∀ w, (⟨3, 0, none, 0⟩ : Member).now = some w → w < 6) ∧ (∀ w, (⟨4, 2, some 5, 0⟩ : Member).now = some w → w < 6) ∧
    (g.members.map (·.dev)).Nodup ∧ g.next ≤ (42000 : Int) + g.offset + g.error ∧ (g.sent < 7) := by
  refine ⟨by decide, nofun, ?_, by decide, by decide, by decide⟩
  rintro w ⟨⟩; decide
/-- Images that the root key signs. -/
theorem wit_Starts_images : (∀ m ∈ (found []).images, m.verifies = true) ∧ ({ found [] with failedStep := some (3, 5) }).failedStep = some (3, 5) := by decide

/-! ### Results that the manual works out: places on the meshes and on the Hem -/

/-- Chapter 1, example: core 0 of a site to L2 slice 15 goes along x to (3, 0), then along y to (3, 3); core 37's nearest slices. -/
theorem test_mesh_path : (MeshUnit.core 0).router = ⟨0, 0⟩ ∧ (MeshUnit.slice 15).router = ⟨3, 3⟩ ∧
    Site.reset.meshPath 0 (.core 0) (.slice 15) = [0, 1, 2, 21, 22, 23] ∧
    [4, 5, 6, 7].map sliceRouter = [⟨2, 0⟩, ⟨3, 0⟩, ⟨2, 1⟩, ⟨3, 1⟩] := by decide
/-- Chapter 1, example: from site 9 to site 2 through sites 8 to 3, and from site 3 to site 11. -/
theorem test_hem_route : hemRoute 9 2 = some (.ccw, 7) ∧ hemRoute 3 11 = some (.cw, 8) ∧ hopCycles (hemRoute 9 2) = 147 ∧
    hemSegments 9 (.ccw, 7) = [8, 7, 6, 5, 4, 3, 2] := by decide
/-- Chapter 3, example: OFS 0x1234_5680 has home slice 15 of 16 and 11 of those in 0x0F0F, and its address in vault 1. -/
theorem test_home_slices : Site.reset.namedSlice 0x12345680 = 15 ∧
    ({ Site.reset with smask0 := 0x0F0F, fmask0 := 0xFF } : Site).namedSlice 0x12345680 = 11 ∧
    ({ Site.reset with modes := [(0x91, 6)] } : Site).namedSlice 0x12345680 = 9 := by decide
theorem test_vault_address : Site.reset.vaultAddr 0x12345680 = 0x048D1580 ∧ Site.reset.vaultOf 0x12345680 = 1 := by decide

/-! ### More forms of the hypotheses: two pages, paths, byte barriers, stages, collectives -/

/-- The page of ASID 5 at piece n, at the same PA, which may deny U or X. -/
def codePage (n : Nat) (u x : Bool) : TlbEntry := ⟨5, n, 1, n * 65536, 0, u, x, true⟩
/-- A thread whose stitch is selected, with an instruction across two pages. -/
def crossing (a b : TlbEntry) : State :=
  { st { helperThread with pc := 65528 } b5 with issueQ := [{ z0 with pc := 65528 }], tvec := [(5, 4)], cores := [(0, { Core.reset with tlb := [a, b] })] }
theorem wit_AStepRunsTheDecodedInstruction_pages :
    (∀ u x : Bool, ∀ p ∈ [[], [(4096, 3)]], let s := { crossing (codePage 0 true true) (codePage 1 u x) with poison := p }
      s.held = false ∧ s.issueQ = [{ z0 with pc := 65528 }] ∧ s.liveMembers { z0 with pc := 65528 } = [0] ∧ s.thread? 0 = some { helperThread with pc := 65528 } ∧ s.block? (tkBk 0) = some b5 ∧
        s.tlbFind 0 b5.asid (65528 / 65536) = some (codePage 0 true true) ∧ s.tlbFind 0 b5.asid ((65528 + 11) / 65536) = some (codePage 1 u x) ∧
        (codePage 0 true true).hits 5 1 = false ∧ nextTrap helperThread = none ∧ Sparse.getD s.tvec b5.asid 0 ≠ 0 ∧
        (∀ k, k < 8 → s.codePoison 0 ((codePage 0 true true).pa (65528 + k)) = none) ∧
        (∀ k, k < 4 → s.codePoison 0 ((codePage 1 u x).pa (65536 + k)) = if p = [] then none else some 3) ∧
        (match decode (List.replicate 12 0) with | .ok (_, []) => true | _ => false) = true) ∧
    (let s := { st helperThread b5 with issueQ := [z0] }
     s.liveMembers z0 = [0] ∧ helperThread.walkFail = none ∧ helperThread.wait = .none ∧ (s.core 0).det = false ∧ s.tlbFind 0 5 0 = none ∧ s.walks = []) ∧
    (let s := { State.reset with held := true, bootFailed := true, agenda := [.startCommand true] }
     s.held = true ∧ s.bootFailed = true ∧ s.agenda = .startCommand true :: []) := by
  refine ⟨?_, by decide, by decide⟩
  decide
/-- A branch without a prediction for whose thread the cycle has come; one whose path was wrong, with and without a report. -/
theorem wit_BranchesAndTheirResolution_paths :
    (let br : Branch := ⟨3, 0, 0, 0, 0, 0, 0, none, 0, [(0, 24, true)], 0⟩
     let t := { helperThread with wait := .branch 3 }
     let s := { s0 t with branches := [br] }
     s.branches.find? (fun b => b.id = 3) = some br ∧ br.pred = none ∧ br.mask = 0 ∧ s.thread? 0 = some t ∧ t.spec = none) ∧
    (∀ l ∈ [[], [(⟨0x14, 0, 0⟩ : Report)]], let br : Branch := ⟨3, 0, 0, 0, 0, 1, 1, some 1, 0, [(0, 24, false)], 0⟩
     let t := { helperThread with spec := some ⟨3, 0, true, [], none⟩, reports := l }
     let s := { s0 t with branches := [br], ckpts := [(0, helperThread)] }
     s.branches.find? (fun b => b.id = 3) = some br ∧ s.thread? 0 = some t ∧ Sparse.get? s.ckpts 0 = some helperThread ∧
      (t.reports = [] ∨ ({ t with pends := helperThread.pends }).collWait = none)) := by decide
/-- The members of a collective, and one with a trap of its own, to the 65th of them. -/
theorem wit_BarriersAndPhases_traps :
    let p (n : Nat) : Phase := { Phase.empty 0 with waiting := [0], arrived := (List.range n).map (fun k => { arrival .vote with t := k + 1, pend := 7 }), fixed := some (0, .vote) }
    ((p 1).arrived ++ [arrival .vote]).length = 2 ∧ 64 < ((p 64).arrived ++ [arrival .vote]).length ∧
    (let t := { helperThread with pendTrap := some (⟨0x12, 5, 0⟩, 0, true), pends := [{ loadPend 4 false with op := .vote, kind := .coll false 0, id := 7 }] }
     t.pendTrap = some (⟨0x12, 5, 0⟩, 0, true) ∧ t.mode = .user ∧ (∀ q ∈ t.pends, q.id = 7) ∧ (phased (p 64)).stopping = false ∧ (phased (p 64)).halted = false) := by
  decide
theorem wit_CollectiveValues_floats : ∀ x ∈ [9, 10, 11], let xs : List Arrival := (List.range 3).map (fun k => ⟨k, .skred, 0, 0x3F800000 + k, 0, x, 0, []⟩)
    xs[2]? = some ⟨2, .skred, 0, 0x3F800002, 0, x, 0, []⟩ ∧ xs.length = 3 ∧ (∀ y ∈ xs, y.a < 2 ^ 32 ∧ y.b < 2 ^ 32) ∧ f0.fn = 0 ∧
      xs.map (·.a) = [0x3F800000, 0x3F800001, 0x3F800002] := by decide
/-- A write of an engine has come over the object's first bytes in the cycle; BWAIT acquires. -/
theorem wit_ByteBarriersAndTheirTraps_more :
    (let t := thr [(4, 0x1FFFF0), (5, 9)]
     let s := { st t (helperBlock 0) with cycleWrites := [⟨precedence 4 0, 1, 0x1FFFF0, 4⟩] }
     Executes .binit { f0 with a := ⟨.v, 4⟩, b := ⟨.v, 5⟩ } s 0 t (helperBlock 0) ∧ s.objectHeld 0 t (helperBlock 0) 0x1FFFF0 = false ∧
      (∃ w ∈ s.cycleWrites, precedence 3 (s.reqRank 0) < w.rank ∧ w.space = 1 + 0 ∧ w.at_ ≤ (helperBlock 0).spbase + 0x1FFFF0 + 3 ∧
        (helperBlock 0).spbase + 0x1FFFF0 + 3 < w.at_ + w.n) ∧
      ¬∃ w ∈ s.cycleWrites, w.at_ ≤ (helperBlock 0).spbase + 0x1FFFF0 + 4 ∧ (helperBlock 0).spbase + 0x1FFFF0 + 4 < w.at_ + w.n) ∧
    allExecute [.bwait] { f0 with a := ⟨.v, 4⟩, fn := 0x40 } (thr [(4, 0x1FFFF0)]) ∧ ({ f0 with fn := 0x40 } : Fields).top3 = 2 :=
  ⟨⟨executesIn ⟨rfl, rfl, rfl⟩ (by decide), by decide, by decide, by decide⟩, all_execute (by decide), by decide⟩
/-- Each action at each stage to a home slice of the own site and of another, where it is the one of its issue; with a mate, with poison, with
bytes that are overruled. -/
theorem wit_HomeSliceAndScratchpadAccesses_stages :
    (∀ c ∈ [(Action.store [1, 2], true), (.load 4, false), (.rmw 0 32 5 true, false), (.rmw 0 32 5 false, true), (.cas 4 0 9, false)],
      ∀ g ∈ [Stage.held, .mesh, .hem, .far], ∀ pa ∈ [124, 2 ^ 36 + 124], let r := access c.1 (.dram pa false) g c.2
      (flying r).batch r = [1] ∧ (flying r).mayPerform r = true ∧ r.gen = ((flying r).site (paSite pa)).gen r.dom ∧
        (flying r).unreachable 0 pa = none ∧ (r.counted = true ∨ r.pend.isSome = true)) ∧
    (let r := access (.rmw 0 32 5 false) (.dram 124 false) .far true
     let s := { flying r with poison := [(7, 3)] }
     s.poisonIn 124 4 = some 3 ∧ s.thread? r.tk = some helperThread ∧ helperThread.exited = false) ∧
    (let r := access (.store [1, 2]) (.dram 124 false) .far true
     let s := { flying r with cycleWrites := [⟨precedence 4 0, 0, 125, 1⟩] }
     s.cycleWrites.any (fun w => decide (precedence 3 (s.reqRank 0) < w.rank ∧ w.space = 0 ∧ w.at_ ≤ 125 ∧ 125 < w.at_ + w.n)) = true ∧
      s.cycleWrites.any (fun w => decide (w.at_ ≤ 124 ∧ 124 < w.at_ + w.n)) = false) ∧
    (let r := { access (.store [1]) (.dram 124 false) .held true with id := 2 }
     let e := { r with id := 1, tk := 1 }
     r.mates e = true ∧ ([e, r].map (·.id)).Nodup ∧ ({ flying r with reqs := [e, r] }).mayPerform r = true) ∧
    (∀ c ∈ [Action.rmw 0 32 5 true, .cas 4 0 9], ∀ p ∈ [[], [(7, 3)]],
      let r := access c (.scr [(0, 0, 124)]) .held false
      let s := (flying r).modCore 0 (fun x => { x with scrPoison := p })
      s.batch r = [1] ∧ s.mayPerform r = true ∧ (s.core 0).scratch.wf = true ∧ (s.copyBlock r.tk (0, 0, 124)).isSome = true ∧
        s.scrPoisonIn 0 124 4 = (if p = [] then none else some 3) ∧ (s.block? (tkBk r.tk)).isSome = true) := by decide
/-- The predicate of a VOTE that has come, which a later instruction of its window writes at once or in cycle 9. -/
theorem wit_ValuesAndAccessesInFlight_pred : ∀ n ∈ [0, 9],
    let p := { loadPend 4 false with op := .vote, kind := .coll false 0, regs := [], pred := some 3, pval := true, ready := true, predOver := n }
    let t := { helperThread with pends := [p] }
    (s0 t).thread? 0 = some t ∧ t.pends.find? (fun p => p.id = 7) = some p ∧ p.regs = [] ∧ p.pred = some 3 ∧ (p.predOver ≤ (s0 t).now 0 ↔ n = 0) := by
  decide
/-- Accumulator entries that an MMA raced with or not, and a store whose first bytes are overruled. -/
theorem wit_MatrixEntriesAndFills_races :
    (∀ c ∈ entering, (entryOf c.1 c.2).racing = false ∧ (entryOf c.1 c.2).racing2 = false) ∧
    (let e := entryOf .accst { f0 with d := 1, a := ⟨.v, 4⟩, imm := 0x0302, x := 0x20 }
     let s := { onCore { holding .filling with mxq := [e] } helperThread with cycleWrites := [⟨precedence 4 0, 1, 0, 4⟩] }
     e.fmt = 0x20 ∧ e.at_ = 0 ∧ e.first + e.rows ≤ 128 ∧ (helperBlock 0).spbase + e.off = 0 ∧
      s.cycleWrites.all (fun w => decide (precedence 3 (s.reqRank e.tk) < w.rank ∧ w.space = 1 + 0)) = true) := by decide
/-- A slot of 16-bit codes, an operand of every type, and a K step that has begun. -/
theorem wit_KStepsAndTheArray_parts :
    ((List.replicate 128 (FV.fin false 1 0)).length = 128 ∧
      (∀ tag ∈ [5, 0x1D, 0x1E], (({ Slot.reset with tag := tag, codes := [(0, 0x3F80), (511, 1)] } : Slot).codes.map (·.1)).Nodup) ∧ (511 : Nat) < 512) ∧
    ((∀ n ∈ [0, 1, 2], ({ mmaEntry true with at_ := n }).at_ = n) ∧ ((s0 helperThread).core 0).scratch.wf = true) ∧
    (let e := { mmaEntry true with tested := true }
     let s := onCore { arrayCore .valid true with mxq := [e] } helperThread
     s.onArray 0 = some (e, helperBlock 0, resident .valid) ∧ ((s.core 0).tilesOf (resident .valid))[e.p]? = some 0 ∧ e.op = .mma ∧
      ((s.core 0).slot 0).tag ≠ 0x1C ∧ e.emp.getLsbD 0 = false ∧ e.p + 1 < ((s.core 0).tilesOf (resident .valid)).length ∧
      ((s.core 0).tilesOf (resident .valid)).length ≤ ({ e with p := 1 } : MxEntry).p + 1) :=
  ⟨⟨List.length_replicate, by decide, by decide⟩, by decide, by decide⟩
/-- A piece whose bytes lie beside the object's, and one of which the cycle has overruled bytes. -/
theorem wit_EngineLandings_over :
    let r := running 0 [⟨.scr [(0, 0, 16)], [1, 2], [], 2, 16⟩] none
    let s := { landing r with cycleWrites := [⟨precedence 4 0, 1, 16, 1⟩] }
    s.copyBlock r.cmd.tk (0, 0, 16) = some (helperBlock 0) ∧ 0 + 16 ≤ (helperBlock 0).spbase + 16 ∧
      s.cycleWrites.all (fun w => decide (engRank 0 0 < w.rank ∧ w.at_ ≤ 16 ∧ 16 < w.at_ + w.n ∧ ¬(17 < w.at_ + w.n))) = true := by decide

/-! ### More forms of the hypotheses: waits, the scheduler, launches and graphs, the outside -/

/-- The helper thread and a second one with waits of their own, in a block whose phases expect them. -/
def two (w v : Wait) (ps : Sparse Phase) : State :=
  { s0 helperThread with
    clk := 2 ^ 20, tvec := [(0, 4)], threads := [(0, { helperThread with wait := w }), (1, { helperThread with wait := v })]
    blocks := [(0, { helperBlock 0 with phases := ps })] }
/-- Both have arrived in a phase, thread 0 of them at BAR or with a collective. -/
def bothArrived : Phase := { Phase.empty 0 with waiting := [2], arrived := [{ arrival .bar with t := 0, pend := 7 }, arrival .bar] }
/-- Thread 0 waits in skein 1 for thread 1, and that one in skein 2 for thread 0. -/
def crossed : State :=
  two (.bar false 1) (.bar false 2) [(1, { Phase.empty 0 with waiting := [1], arrived := [{ arrival .bar with t := 0 }] }), (2, { Phase.empty 0 with waiting := [0], arrived := [arrival .bar] })]
theorem wit_WakesReportsAndProbes_withdraws :
    (let s := two (.bar false 0) .none [(0, bothArrived)]
     s.block? (tkBk 0) = some { helperBlock 0 with phases := [(0, bothArrived)] } ∧ bothArrived.arrived.find? (fun x => x.t == tkThr 0) = some { arrival .bar with t := 0, pend := 7 } ∧
      bothArrived.arrived.filter (fun x => x.t != tkThr 0) ≠ []) ∧
    (let p := { loadPend 4 false with op := .vote, kind := .coll false 0, left := 0 }
     p.kind = .coll false 0 ∧ p.left = 0 ∧ p.ready = false ∧ p.id = ({ arrival .bar with t := 0, pend := 7 } : Arrival).pend ∧
      (let br : Branch := ⟨3, 0, 0, 0, 0, 1, 1, some 1, 0, [(0, 24, false)], 0⟩
       let c := { helperThread with pends := [p] }
       let t := { c with spec := some ⟨3, 0, true, [], none⟩, reports := [⟨0x14, 0, 0⟩] }
       let s := { st t { helperBlock 0 with phases := [(0, bothArrived)] } with branches := [br], ckpts := [(0, c)] }
       s.branches.find? (fun y => y.id = 3) = some br ∧ s.thread? 0 = some t ∧ Sparse.get? s.ckpts 0 = some c ∧ t.exited = false ∧ t.mode = .user ∧ t.reports ≠ [] ∧
        c.pends = [p] ∧ bothArrived.arrived.find? (fun y => y.t == tkThr 0) = some { arrival .bar with t := 0, pend := 7 })) := by decide
/-- Waits at BAR, at a seam, for room and on an object, alone or with what may end them; an MMA and a held command that wait. -/
theorem wit_WakesReportsAndProbes_enablers :
    (∀ w ∈ [Wait.bar false 1, .seam 3 true, .matrixRoom 5, .bwait 0 0 16 true 16], let s := two w .none []
      s.thread? 0 = some { helperThread with wait := w } ∧ s.acqOpen 0 = false ∧ (helperBlock 0).savedEntries = [] ∧ s.activeCmds = [] ∧
        (s.blocks.find? (fun y => y.2.core == 0 && decide (y.2.spbase ≤ 16 ∧ 16 < y.2.spbase + y.2.spsize))).isSome = true) ∧
    ((landing (running 0 [] none)).activeCmds ≠ [] ∧ (landing (running 0 [] none)).barAt (running 0 [] none).cmd = some (0, 0)) ∧
    (∀ n ∈ [0, 1], let b := { helperBlock 0 with seams := [(3, ⟨1, n, false⟩)] }
      let s := { onCore (waitingCore .valid []) helperThread with blocks := [(0, b)] }
      let e := { mmaEntry false with started := false }
      let s1 := s.modCore 0 (fun c => { c with mxq := [e] })
      (s1.core 0).mxq.find? (fun x => x.id == e.id) = some e ∧ e.op = .mma ∧ e.started = false ∧ s1.seamOk e = decide (n = 1)) ∧
    (∀ n ∈ [0, 1], let c := { cmdOf 0 [(0, 1)] with succ := some 0 }
      let b := { helperBlock 0 with nodes := [(2, ⟨n, some c⟩)] }
      let s := { s0 helperThread with blocks := [(0, b)] }
      (b.node 2).held = some c ∧ (b.node 2).count = n ∧ s.activeCmds = []) := by decide
/-- Two threads that wait for each other at BAR; all that a probe of the first reaches. -/
theorem crossed_reached (q : Party) : q ∈ [Party.thread 0, .thread 1] ↔ Reached crossed (.thread 0) q := by
  have h0 : crossed.enablers (.thread 0) = some [.thread 1] := by decide
  have h1 : crossed.enablers (.thread 1) = some [.thread 0] := by decide
  constructor
  · intro hq
    rcases List.mem_cons.1 hq with rfl | hq
    · exact .self
    · rw [List.mem_singleton.1 hq]
      exact .enabler _ _ _ .self h0 (List.mem_singleton.2 rfl)
  · intro hr
    induction hr with
    | self => exact List.mem_cons_self
    | enabler q e es _ he hm ih =>
      rcases List.mem_cons.1 ih with rfl | ih
      · rw [h0] at he; obtain rfl := Option.some.inj he; exact List.mem_cons_of_mem _ hm
      · rw [List.mem_singleton.1 ih] at he
        rw [h1] at he; obtain rfl := Option.some.inj he
        rw [List.mem_singleton.1 hm]; exact List.mem_cons_self
theorem wit_WakesReportsAndProbes_cycles :
    (let ps := [Party.thread 0, .thread 1]
     ps.Nodup ∧ (∀ q, q ∈ ps ↔ Reached crossed (.thread 0) q) ∧ (∀ q ∈ ps, crossed.enablers q ≠ none) ∧
      (ps.map (fun q => ((crossed.enablers q).getD []).length)).sum + 2 < 2 ^ 40 ∧ max helperThread.waitSince helperThread.unblocked + 2 ^ 20 ≤ crossed.clk ∧
      ∀ k ∈ [0, 1], ∃ t b a, crossed.thread? k = some t ∧ crossed.block? (tkBk k) = some b ∧ t.mode = .user ∧ t.pends = [] ∧ t.spec = none ∧
        t.wait = .bar false (k + 1) ∧ (b.phaseOf (.skein (k + 1))).arrived.find? (fun x => x.t == tkThr k) = some a ∧ a.pc = t.pc ∧
        Sparse.getD crossed.tvec b.asid 0 ≠ 0 ∧ b.trapSkeins.length + 2 < 3072) ∧
    (let c := { cmdOf 0 [(0, 1)] with succ := some 0 }
     let s := { s0 helperThread with clk := 2 ^ 20, blocks := [(0, { helperBlock 0 with nodes := [(2, ⟨1, some c⟩)] })] }
     s.enablers (.node 0 2) = some [] ∧ (∀ q, q ∈ [Party.node 0 2] ↔ Reached s (.node 0 2) q) ∧ c.heldSince + 2 ^ 20 ≤ s.clk) ∧
    ∃ q, Reached (two (.bar false 0) .none [(0, { Phase.empty 0 with waiting := [1] })]) (.thread 0) q ∧
      (two (.bar false 0) .none [(0, { Phase.empty 0 with waiting := [1] })]).enablers q = none := by
  refine ⟨⟨by decide, crossed_reached, by decide, by decide, by decide, ?_⟩, ⟨by decide, fun q => ⟨?_, ?_⟩, by decide⟩, ?_⟩
  · intro k hk
    rcases List.mem_cons.1 hk with rfl | hk
    · exact ⟨_, _, _, rfl, rfl, rfl, rfl, rfl, rfl, rfl, rfl, by decide, by decide⟩
    · rw [List.mem_singleton.1 hk]
      exact ⟨_, _, _, rfl, rfl, rfl, rfl, rfl, rfl, rfl, rfl, by decide, by decide⟩
  · intro h; rw [List.mem_singleton.1 h]; exact .self
  · intro h
    induction h with
    | self => exact List.mem_cons_self
    | enabler q e es _ he hm ih =>
      rw [List.mem_singleton.1 ih] at he
      cases Option.some.inj he
      cases hm
  · exact ⟨.thread 1, .enabler _ _ [.thread 1] .self (by decide) (List.mem_singleton.2 rfl), by decide⟩
/-- A core whose slices 0 and 1 are both sampled, with room for one record or for none. -/
theorem wit_Sampler_slices : ∀ n ∈ [15, 16],
    let s := { sampling n with threads := [(0, helperThread), (32, helperThread)], cores := [(0, { ((sampling n).core 0) with slmask := 3 })] }
    let c := s.core 0
    (List.range 6).filter (fun sl => c.slmask.getLsbD sl && !((s.sliceThreads 0 sl).filter (fun y => !y.2.1.exited)).isEmpty) = [0, 1] ∧ c.en = true ∧
      c.smpSize < 2 ^ 32 ∧ c.smpWr + 6 < 2 ^ 32 ∧ c.smpRd < 2 ^ 32 ∧ c.smpDrop < 2 ^ 32 ∧ c.smpBase % 16 = 0 ∧
      c.smpSize - (c.smpWr + 2 ^ 32 - c.smpRd) % 2 ^ 32 = 16 - n ∧
      ∀ k, k < 6 → ∀ i, i < 16 → let a := c.smpBase + 16 * ((c.smpWr + k) % c.smpSize) + i
        s.ownDram a = true ∧ s.vaultLost a = false ∧ s.unreachable 0 a = none ∧ (s.site (paSite a)).quadOk (frameOf (paOfs a)) = true := by
  intro n hn
  refine ⟨?_, ?_, ?_, ?_, ?_, ?_, ?_, ?_, ?_⟩ <;> revert n <;> decide
/-- A ring entry that is no multiple of 128, a descriptor of no register, one bound to an absent residency; a record can be written at VA 256. -/
theorem wit_LaunchesBeginAndComplete_refused :
    (let s := atQueue ringQueue [(8192, 8), (8193, 4)]
     (s.queue 1).work = [none] ∧ (s.queue 1).en = true ∧ (s.queue 1).current = none ∧ (s.queue 1).run = none ∧
      (s.readVa 5 8192 8).map leNat = some 1032) ∧
    (∀ compl ∈ [(0 : Byte), 1], let s := atQueue ringQueue [(1041, compl), (8193, 4)]
      (s.readVa 5 8192 8).map leNat = some 1024 ∧ (s.readVa 5 1024 128).map (fun bs => ((parseDesc bs).formOk (leNat (bs.take 8)), (parseDesc bs).compl)) =
        some (false, 256 * compl.toNat)) ∧
    (∀ compl ∈ [(0 : Byte), 1], let s := atQueue ringQueue [(1041, compl), (1084, 1), (1086, 8), (1087, 0x41), (8193, 4)]
      (s.readVa 5 1024 128).map (fun bs => let d := parseDesc bs
        (d.formOk (leNat (bs.take 8)), d.affinity, d.compl, (s.resOf d.affin).isSome, (s.readVa 5 d.const 256).isSome)) = some (true, true, 256 * compl.toNat, false, true) ∧
        s.canWrite 5 256 16 = true) := by
  refine ⟨by decide, ?_, ?_⟩ <;> decide
theorem wit_LaunchesBeginAndComplete_record : let r := ringState.ringReads (ringState.queue 1)
    r.schedPa 5 256 true = some (256, false) ∧ r.ownDram 256 = true ∧ r.vaultLost 256 = false ∧
      (r.site (paSite 256)).quadOk (frameOf (paOfs 256)) = true ∧ r.unreachable 0 256 = none := by decide +kernel
/-- The last launch but one of a run, where the node after it still waits. -/
theorem wit_LaunchesBeginAndComplete_nodes :
    let l := { aLaunch 0 with node := some (3, 0), ended := [0] }
    let r : Run := ⟨3, 1, 7, [.begun 9, .waiting]⟩
    let s := { runState [aNode [1], aNode []] with launches := [(9, l)], runs := [(3, r)] }
    (s.launch? l.id = some l ∧ l.desc.nblk ≤ l.ended.length + l.lost ∧ l.redo = [] ∧ (∀ c ∈ s.blocks, c.2.launch ≠ l.id) ∧ s.saved = [] ∧
      Sparse.get? s.runs 3 = some r ∧ r.id = 3 ∧ 0 < (Sparse.getD s.graphs r.gid []).length ∧ r.nodes.length = (Sparse.getD s.graphs r.gid []).length) ∧
    ∀ (i c : Nat), r.nodes[i]? ≠ some (.done c) := by
  refine ⟨by decide, fun i c => ?_⟩
  match i with
  | 0 => exact nofun
  | 1 => exact nofun
  | _ + 2 => exact nofun
/-- Core 0 with the PRE record 3 of a node of the graph that queue 1 runs; a fenced core has no room for it. -/
def preCore (fenced : Bool) : Core :=
  { bindCore [(3, ⟨word0 1 0 0, 0, 0, 0⟩)] with pre := [(3, (1, 7, 0))], fenced := fenced }
theorem wit_Graphs_pre (x : Bool) :
    (let s := { runState [aNode []] with cores := [(0, preCore x)], blocks := [], threads := [] }
     let c := s.core 0
     let p := c.record 3
     let d := parseDesc (aNode []).desc
     (risingFrom 0 s.cores = true ∧ risingFrom 0 c.records = true ∧ (∀ y ∈ s.cores, ∀ z ∈ y.2.records, z.2.state = 1 → y.1 = 0 ∧ z.1 = 3) ∧
      p.state = 1 ∧ Sparse.get? c.records 3 = some p ∧ Sparse.get? c.pre 3 = some (1, 7, 0) ∧ s.block? (bkOf 0 3) = none ∧ p.rst = false ∧
      d.quilt = 1 ∧ p.blk < d.nblk ∧ (aNode []).desc.length = 128 ∧ (aNode []).consts.length = 64) ∧
     ((∀ k, k < 64 → c.ltvalid.getLsbD k = false → ∀ z ∈ c.records, z.2.ltag ≠ k) ∧ (s.boundTags 0).contains 1 = false ∧ c.ltvalid.getLsbD 1 = false ∧ s.blocks = [] ∧ s.saved = [] ∧ (∀ y ∈ s.cores, y.2.placed = []) ∧
      (s.site (0 / 4)).reservation = none ∧ (s.site (0 / 4)).applied ≠ 7 ∧ d.ntid ≤ 3072) ∧
     c.fenced = x ∧ (s.site (0 / 4)).fenced = false ∧ p.slotb + d.levels ≤ 16 ∧ p.spbase + p.spsize ≤ 16384 ∧ p.abase + p.accn ≤ 8) ∧
    ∀ k, k ≠ 3 → ((preCore x).record k).state ≠ 2 := by
  refine ⟨⟨?_, ⟨?_, ?_⟩, ?_⟩, fun k hk => ?_⟩
  · cases x <;> decide +kernel
  · cases x <;> decide +kernel
  · cases x <;> decide +kernel
  · cases x <;> decide +kernel
  have : (preCore x).record k = BindRecord.free := by simp [Core.record, preCore, bindCore, Sparse.getD, Sparse.get?, Ne.symm hk]
  rw [this]; decide
/-- Images with no node, with a bad successor, with a wrong count, with a node that names itself, with a descriptor of zeros; and a graph that is run. -/
def imageOf (desc : List Byte) (preds many succ : Nat) : List Byte :=
  leBytes 16 1 ++ desc ++ List.replicate 256 0 ++ leBytes 8 (preds + many * 2 ^ 16 + 408 * 2 ^ 32) ++ leBytes 2 succ
theorem wit_Graphs_images :
    leNat (([] : List Byte).take 2) = 0 ∧
    (∀ x ∈ [(0, 1, 1), (1, 0, 0), (1, 1, 0), (0, 0, 0)], let img := imageOf (descBytes []) x.1 x.2.1 x.2.2
      leNat (img.take 2) = 1 ∧ (∀ b ∈ (img.drop 2).take 14, b = 0) ∧ leNat ((img.drop 400).take 2) = x.1 ∧ leNat ((img.drop 402).take 2) = x.2.1 ∧
        leNat ((img.drop (leNat ((img.drop 404).take 4))).take 2) = x.2.2) ∧
    ({ parseDesc (((imageOf (List.replicate 128 0) 0 0 0).drop 16).take 128) with compl := 0 } : Desc).formOk 0 = false ∧
    (let s := { State.reset with queues := [(1, { Queue.reset with gid := 3, run := some 5 })] }
     ∃ q ∈ s.queues, q.2.gid = 3 ∧ q.2.run.isSome = true) ∧
    split.cutOff (edgeSite (controlDie 1)) 0 = true ∧ split.cutOff (edgeSite (controlDie 0)) 0 = false := by decide +kernel
/-- So many nodes of other graphs that no more fit. -/
theorem wit_Graphs_total : 32768 < ((({ State.reset with graphs := [(5, List.replicate 32768 (aNode []))] } : State).graphs.filter (fun c => c.1 != 3)).map
    (fun c => c.2.length)).sum + 1 := by
  show 32768 < [(List.replicate 32768 (aNode [])).length].sum + 1
  rw [List.length_replicate]; decide
/-- The one launch of a queue: what it offers, whose turn it is, where it goes and which place it takes. -/
theorem wit_PlacementOrder :
    (offering.busyQueues = [1] ∧ offering.placeable 1 = some (aLaunch 0, ⟨9, [(0, none)]⟩, 0) ∧ offering.launchesOf 1 = [aLaunch 0] ∧
      offering.units (aLaunch 0) = [⟨9, [(0, none)]⟩] ∧ Sparse.get? offering.turns 0 = none ∧
      ∀ n ∈ [0, 1, 2], Sparse.get? ({ offering with turns := [(0, n)] } : State).turns 0 = some n) ∧
    ((aLaunch 0).invalid = false ∧ (aLaunch 0).unplaceable = false ∧ (aLaunch 0).desc.affinity = false ∧ offering.migrations = [] ∧ (aLaunch 0).desc.pieces 0 = [] ∧
      ({ (aLaunch 0).desc with fps := [(65536, 8, 4), (65536, 0, 131072)] } : Desc).pieces 1 = [1, 2]) ∧
    (offering.fitSite (aLaunch 0) ⟨9, [(0, none)]⟩ [] [] 0 = some [⟨0, 0, 0, 0, 0, 0, 0⟩] ∧
      offering.fitSite (aLaunch 0) ⟨9, [(0, none)]⟩ [] [⟨0, 5, 3, 2, 1, 0, 128⟩] 0 = some [⟨0, 5, 3, 2, 1, 0, 128⟩] ∧
      offering.fitSite (aLaunch 0) ⟨9, [(0, none)]⟩ [] [⟨0, 5, 3, 16, 1, 0, 128⟩] 0 = none ∧ offering.siteOpen (aLaunch 0) ⟨9, [(0, none)]⟩ 0 = true) ∧
    ∀ k, risingFrom 0 (offering.core k).records = true := by
  refine ⟨?_, ?_, ?_, fun k => rfl⟩ <;> decide
/-- The block that is stopped for launch 9: without it there is no room, with it there is. -/
theorem wit_BlocksEndAndRoomIsMade_fits :
    let s := taken b8
    let s1 := s.setQueue 1 { s.queue 1 with quantum := some (s.clk + (s.queue 1).quant * 2100) }
    let gs := s1.groupsOn 0 (fun b => match s.launch? b.launch with | some k => k.queue == 1 | none => false)
    gs = [[(0, b8)]] ∧ ∃ l, s1.waitingFor 1 = some (l, unit9) ∧ (s1.siteOrder l unit9).head? = some 0 ∧ s1.fitSite l unit9 (s1.givenUp 0) [] 0 = none ∧
      (s1.fitSite l unit9 (s1.givenUp 0 ++ [(0, 0)]) [] 0).isSome = true := by
  refine ⟨by decide, _, rfl, ?_⟩
  decide
/-- A value that came to another member in time and by relay later. -/
theorem wit_ThrottleStates_relay :
    let g : Group := ⟨1, [⟨3, 0, none, 0⟩], 0, 0, 0, 42000, 0, 3⟩
    (some (0 : Int)).getD 41000 + 42000 ≤ g.next ∧ (41000 : Int) < g.next ∧ ¬((none : Option Int).getD 41000 + 42000 ≤ g.next) := by decide
/-- A failed step, an unsound site 0, images that are not those measured: each first where no earlier step failed. -/
theorem wit_Starts_causes :
    (let i := { found [] with failedStep := some (5, 0) }
     (∀ k j, (i.failedStep = some (k, j) ∨ (k = 2 ∧ j = 0 ∧ StartUnit.site 0 ∈ i.bad) ∨ (k = 4 ∧ j = 0 ∧ ∃ m ∈ i.images, m.verifies = false)) →
       k = 5 ∧ j = 0) ∧ State.reset.failedStarts < 3) ∧
    (∀ k j, ((found [.site 0]).failedStep = some (k, j) ∨ (k = 2 ∧ j = 0 ∧ StartUnit.site 0 ∈ (found [.site 0]).bad) ∨
      (k = 4 ∧ j = 0 ∧ ∃ m ∈ (found [.site 0]).images, m.verifies = false)) → k = 2 ∧ j = 0) ∧
    (∀ k j, ((found []).failedStep = some (k, j) ∨ (k = 2 ∧ j = 0 ∧ StartUnit.site 0 ∈ (found []).bad) ∨
      (k = 4 ∧ j = 0 ∧ (found []).images.map Image.digest ≠ State.reset.measure)) → k = 4 ∧ j = 0) := by
  refine ⟨⟨?_, by decide⟩, ?_, ?_⟩ <;> intro k j h <;> rcases h with h | ⟨rfl, rfl, h⟩ | ⟨rfl, rfl, h⟩ <;> revert h <;> simp [found]
  rintro rfl rfl; exact ⟨rfl, rfl⟩
/-- FIPS 202, whose SHAKE256 of the empty message begins 46 B9 DD 2B 0B A8 8D 13 and whose bytes 56 to 63 are 40 29 2E AC B3 B7 C4 BE. -/
theorem test_shake256_empty : (shake256 []).toNat % 2 ^ 64 = 0x138DA80B2BDDB946 ∧ (shake256 []).toNat / 2 ^ 448 = 0xBEC4B7B3AC2E2940 := by
  decide +kernel

end Sys2Proof.Tests
end

section
/-!
SUPPORT. How a thread that is alone in its stitch delivers a result: the ranges of the operands it has read (R145), the checks that a word
which executes has passed (R372), and an instruction's answer from what its own effect on the thread is.
-/
namespace Sys2Proof.Machine

/-! ### Ranges of operand values (R145) -/

theorem Thread.regsVal_lt (t : Thread) (i n : Nat) : t.regsVal i n < 2 ^ (32 * n) := by
  induction n generalizing i with
  | zero => exact Nat.one_pos
  | succ n ih =>
    have hn := ih (i + 1)
    have hi : (t.reg i).toNat < 2 ^ 32 := (t.reg i).isLt
    rw [Thread.regsVal, Nat.mul_succ, Nat.pow_add]
    omega

theorem Block.ksVal_lt (b : Block) (i n : Nat) : b.ksVal i n < 2 ^ (32 * n) := by
  induction n generalizing i with
  | zero => exact Nat.one_pos
  | succ n ih =>
    have hn := ih (i + 1)
    have hi : (b.k i).toNat < 2 ^ 32 := (b.k i).isLt
    rw [Block.ksVal, Nat.mul_succ, Nat.pow_add]
    omega

/-- What a source of kind 10 reads fits one register (Table 6.3). -/
theorem opnd_alt_lt (op : Op) (t : Thread) (b : Block) (f : Fields) (sf : SForm) (i : BitVec 8) :
    opnd op t b f sf ⟨.alt, i⟩ < 2 ^ 32 := by
  have hbit : ∀ x : Bool, bit1 x < 2 ^ 32 := by decide
  simp only [opnd]
  split
  · split
    · exact (t.bank _).isLt
    · exact hbit _
  · split
    · exact hbit _
    · exact Nat.lt_trans i.isLt (by decide)

/-- A source of one or two registers is below 2^32 or 2^64, whatever its kind. -/
theorem opnd_lt {sf : SForm} (h : sf.n = 1 ∨ sf.n = 2) (op : Op) (t : Thread) (b : Block) (f : Fields) (x : Src) :
    opnd op t b f sf x < 2 ^ (32 * sf.n) := by
  obtain ⟨kind, i⟩ := x
  cases kind with
  | v => exact t.regsVal_lt _ _
  | k => exact b.ksVal_lt _ _
  | imm =>
    have h1 : f.imm.toNat < 2 ^ 32 := f.imm.isLt
    have h2 : (f.imm.signExtend 64).toNat < 2 ^ 64 := BitVec.isLt _
    rcases h with h | h <;> simp only [opnd, h] <;> simpa using ‹_›
  | alt =>
    refine Nat.lt_of_lt_of_le (opnd_alt_lt op t b f sf i) (Nat.pow_le_pow_right (by decide) ?_)
    omega

theorem wregs_eq (f : Fields) : 32 * f.wregs = widthOf f := by unfold Fields.wregs widthOf; split <;> rfl

/-- A source A as wide as the type is below 2^W. -/
theorem opndA_lt_width {op : Op} {b : Block} {f : Fields} (h : (form op b.limits f).a.n = f.wregs) (t : Thread) :
    opndA op t b f < 2 ^ widthOf f := by
  have hn : (form op b.limits f).a.n = 1 ∨ (form op b.limits f).a.n = 2 := by
    rw [h, Fields.wregs]; split <;> simp
  rw [← wregs_eq, ← h]
  exact opnd_lt hn op t b f f.a

theorem opndA_lt_word {op : Op} {b : Block} {f : Fields} (h : (form op b.limits f).a.n = 1) (t : Thread) :
    opndA op t b f < 2 ^ 32 := by
  have hlt := opnd_lt (Or.inl h) op t b f f.a
  rwa [h] at hlt

theorem opndB_lt_word {op : Op} {b : Block} {f : Fields} (h : (form op b.limits f).b.n = 1) (t : Thread) :
    opndB op t b f < 2 ^ 32 := by
  have hlt := opnd_lt (Or.inl h) op t b f f.b
  rwa [h] at hlt

/-! ### What a word that executes has passed (R372) -/

theorem Executes.rejection_none {op : Op} {f : Fields} {s : State} {tk : Nat} {t : Thread} {b : Block} (h : Executes op f s tk t b) :
    rejection op op.code.toNat t b f = none := by
  have hw := h.word
  unfold wordTrap at hw
  split at hw
  · contradiction
  · assumption

theorem Executes.wordReject_none {op : Op} {f : Fields} {s : State} {tk : Nat} {t : Thread} {b : Block} (h : Executes op f s tk t b) :
    wordReject op b.limits f = none := by
  have hr := h.rejection_none
  cases hw : wordReject op b.limits f with
  | none => rfl
  | some c =>
    simp only [rejection, hw] at hr
    split at hr
    · contradiction
    · split at hr <;> contradiction

/-- A destination predicate or banked register of an instruction that executes is one of eight. -/
theorem Executes.predDest_lt {op : Op} {f : Fields} {s : State} {tk : Nat} {t : Thread} {b : Block} (h : Executes op f s tk t b)
    (hop : op ≠ .nop) (hd : (form op b.limits f).d = .pred) : f.d.toNat < 8 := by
  have hr := h.wordReject_none
  rw [wordReject, if_neg hop, Option.map_eq_none_iff, List.find?_eq_none] at hr
  have hc := hr (5, 2, decide (f.d.toNat ≥ 8)) (by simp [wordChecks, hd])
  simpa using hc

/-! ### Answers from the effect on one thread -/

variable {i : Instr} {op : Op} {f : Fields} {s : State} {tk : Nat} {t : Thread} {b : Block}

/-- An integer instruction that delivers a number to n registers without a flag (R144). -/
theorem GivesRegs.of_outVal {n x : Nat} {g : Opnds → RegOut} {P : Nat → Prop} (hi : exec i s = execCompute op 4 f g s)
    (hd : (form op b.limits f).d = .reg n) (hg : g (readOpnds op t b f) = outVal x) (hP : P x) :
    GivesRegs i op f s tk t b 0 n P :=
  execCompute_regs 4 n x hd hg P hP i hi

/-- An instruction with an effect of its own that delivers a number as one that computes does. -/
theorem GivesRegs.of_body {n x : Nat} {P : Nat → Prop} {body : Nat → Thread → Block → State → State}
    (hi : exec i s = .next (issueAll op f body s)) (hd : (form op b.limits f).d = .reg n)
    (hbody : body tk t b s = computeBody op 4 f (fun _ => outVal x) tk t b s) (hP : P x) : GivesRegs i op f s tk t b 0 n P := by
  intro h
  have hrun : exec i s = execCompute op 4 f (fun _ => outVal x) s := by
    rw [hi, execCompute, issueAll_alone h, issueAll_alone h, hbody]
  exact GivesRegs.of_outVal hrun hd rfl hP h

/-- One that delivers a banked register (R160). -/
theorem execCompute_bank (h : Executes op f s tk t b) {fig x : Nat} {g : Opnds → RegOut}
    (hg : g (readOpnds op t b f) = { bank := some x }) (hi : exec i s = execCompute op fig f g s) :
    ∃ s' u, exec i s = .next s' ∧ Computed s s' tk t u b 0 ∧ u.v = t.v ∧ u.p = t.p ∧
      ∀ j, u.bank j = if j = f.d.toNat % 8 then BitVec.ofNat 32 x else t.bank j := by
  obtain ⟨s', u, n, e, hu, hc⟩ := execCompute_alone h fig g
  rw [hg] at hu hc
  refine ⟨s', u, hi.trans e, hc, ?_, ?_, fun j => ?_⟩ <;> rw [hu]
  · rfl
  · rfl
  · simp only [Thread.deliver, Thread.readyFrom, Thread.bank, Sparse.getD_set]
    rfl

/-- The words of a number among the values of consecutive registers (R116). -/
theorem destVals_get? (d n x : Nat) {j : Nat} (hj : j < n) :
    Sparse.get? (destVals ((List.range n).map (d + ·)) x) (d + j) = some (BitVec.ofNat 32 (x / 2 ^ (32 * j))) := by
  induction n generalizing d x j with
  | zero => omega
  | succ n ih =>
    have hshift : (List.range n).map ((d + ·) ∘ Nat.succ) = (List.range n).map ((d + 1) + ·) :=
      List.map_congr_left fun k _ => by simp only [Function.comp]; omega
    rw [List.range_succ_eq_map, List.map_cons, List.map_map, hshift, destVals]
    cases j with
    | zero => simp
    | succ j =>
      rw [Sparse.get?_set_ne _ _ (by omega), show d + (j + 1) = d + 1 + j by omega, ih (d + 1) _ (by omega),
        Nat.mul_succ, Nat.add_comm (32 * j), Nat.pow_add, Nat.div_div_eq_div_mul]

/-- An instruction that retires and opens a window with a known result (R31, R168). -/
theorem OpensKnown.of_body {n x due : Nat} {w : FlagWord} {body : Nat → Thread → Block → State → State}
    (hi : exec i s = .next (issueAll op f body s)) (hd : (form op b.limits f).d = .reg n)
    (hbody : body tk t b s =
      ((s.setThread tk (t.retire.openPend (knownPend op b.limits f s.nextId x due w (flagHome t)))).bumpId).bumpFresh) :
    OpensKnown i op f s tk t b n x w := by
  intro h
  have hregs : destRegs op b.limits f = (List.range n).map (f.d.toNat + ·) := by simp only [destRegs, regsWritten, hd]
  refine ⟨_, knownPend op b.limits f s.nextId x due w (flagHome t), by rw [hi, issueAll_alone h, hbody], ?_,
    rfl, rfl, rfl, rfl, rfl, rfl, rfl, hregs, fun j hj => ?_⟩
  · exact ⟨by simp [Thread.openPend], fun k hk => by simp [State.thread?_setThread_ne _ tk _ hk], rfl,
      SameBytes.of_parts rfl rfl rfl rfl rfl⟩
  · simp only [knownPend, hregs]
    exact destVals_get? _ _ _ hj

end Sys2Proof.Machine
end

section
/-!
Integer arithmetic (R148 to R150): the results of IADD to IABS, IMULW, ISAD and LEA are the exact integers reduced to the width.
-/
namespace Sys2Proof.Machine

/-- The clamp of .sat under its field, as R148 writes it. -/
theorem satClamp_eq (f : Fields) (y : Int) :
    (if !f.sat then y
      else if f.signed then min (max y (-(2 ^ (widthOf f - 1)))) (2 ^ (widthOf f - 1) - 1) else min (max y 0) (2 ^ widthOf f - 1)) =
      if f.sat then clampTo y (widthOf f) f.signed else y := by
  rw [clampTo_eq]
  cases f.sat <;> rfl

/-- The common shape of R148: the exact result, clamped where the instruction has .sat and its field says so, modulo 2^W. -/
theorem intOut_gives {i : Instr} {op : Op} {f : Fields} {s : State} {tk : Nat} {t : Thread} {b : Block} (sat : Bool)
    (g : Int → Int → Int → Int) (hi : exec i s = execCompute op 4 f (fun e => intOut f e sat g) s)
    (hd : (form op b.limits f).d = .reg f.wregs) :
    GivesRegs i op f s tk t b 0 f.wregs (fun x => BitVec.ofNat (widthOf f) x = BitVec.ofInt (widthOf f)
      (let y := g (intOf (opndA op t b f) (widthOf f) f.signed) (intOf (opndB op t b f) (widthOf f) f.signed)
        (intOf (opndC op t b f) (widthOf f) f.signed)
       if sat && f.sat then clampTo y (widthOf f) f.signed else y)) :=
  GivesRegs.of_outVal hi hd rfl (ofNat_wrapTo _ _)

/-- |a| of R148. -/
theorem natAbs_eq_ite (a : Int) : (a.natAbs : Int) = if a < 0 then -a else a := by split <;> omega

/-- The product of IMULW modulo 2^64 (R149). -/
theorem imulw_gives (f : Fields) (s : State) (tk : Nat) (t : Thread) (b : Block) :
    GivesRegs (.imulw f) .imulw f s tk t b 0 2 (fun x => BitVec.ofNat 64 x =
      BitVec.ofInt 64 (intOf (opndA .imulw t b f) 32 f.signed * intOf (opndB .imulw t b f) 32 f.signed)) :=
  GivesRegs.of_outVal (g := outImulw f) rfl rfl rfl (ofNat_wrapTo _ _)

/-- The sum of ISAD modulo 2^32 (R149). -/
theorem isad_gives (f : Fields) (s : State) (tk : Nat) (t : Thread) (b : Block) :
    GivesRegs (.isad f) .isad f s tk t b 0 1 (fun x => BitVec.ofNat 32 x = BitVec.ofNat 32
      ((intOf (opndA .isad t b f) 32 f.signed - intOf (opndB .isad t b f) 32 f.signed).natAbs + opndC .isad t b f)) :=
  GivesRegs.of_outVal (g := outIsad f) rfl rfl rfl (BitVec.eq_of_toNat_eq (by simp [readOpnds]))

/-- The index that LEA scales, as a 64-bit word (R150). -/
def leaIndex (f : Fields) (b : Nat) : BitVec 64 :=
  if f.wide then BitVec.ofNat 64 b
  else if f.signed then (BitVec.ofNat 32 b).signExtend 64 else (BitVec.ofNat 32 b).setWidth 64

theorem leaIndex_eq (f : Fields) (b : Nat) :
    leaIndex f b = BitVec.ofInt 64 (if f.wide then (b : Int) else intOf b 32 f.signed) := by
  rw [leaIndex, intOf_eq _ _ _ (by decide)]
  split
  · rw [BitVec.ofInt_natCast]
  · split
    · rfl
    · rw [BitVec.ofInt_natCast, BitVec.ofNat_toNat]

/-- A scaled index is a shifted one modulo 2^W. -/
theorem ofInt_mul_two_pow (w : Nat) (y : Int) (n : Nat) : BitVec.ofInt w (y * 2 ^ n) = BitVec.ofInt w y <<< n := by
  have hcast : (2 : Int) ^ n = ((2 ^ n : Nat) : Int) := by push_cast; rfl
  have hpow : BitVec.ofInt w (2 ^ n) = BitVec.twoPow w n := by
    rw [hcast, BitVec.ofInt_natCast]
    exact BitVec.eq_of_toNat_eq (by rw [BitVec.toNat_ofNat, BitVec.toNat_twoPow])
  rw [BitVec.shiftLeft_eq_mul_twoPow, BitVec.ofInt_mul, hpow]

/-- The address of LEA modulo 2^64 (R150). -/
theorem lea_gives (f : Fields) (s : State) (tk : Nat) (t : Thread) (b : Block) :
    GivesRegs (.lea f) .lea f s tk t b 0 2 (fun x => BitVec.ofNat 64 x =
      BitVec.ofNat 64 (opndA .lea t b f) + (leaIndex f (opndB .lea t b f) <<< (f.x.extractLsb' 0 4).toNat)) := by
  refine GivesRegs.of_outVal (g := outLea f) rfl rfl rfl ?_
  have hshift : (f.x.extractLsb' 0 4).toNat = f.x.toNat % 16 := by simp
  rw [ofNat_wrapTo, BitVec.ofInt_add, BitVec.ofInt_natCast, ofInt_mul_two_pow, leaIndex_eq, hshift]
  rfl

/-- Settles O9: each result is the exact integer of R148 to R150, reduced by `wrapTo` to the width of its destination. -/
theorem integerArithmetic : Obligations.IntegerArithmetic := by
  refine ⟨fun f s tk t b => ?_, fun f s tk t b => ?_⟩
  · have hint (x : Nat) := intOf_eq x (widthOf f) f.signed (widthOf_pos f)
    simp only [← hint, satClamp_eq, ← natAbs_eq_ite]
    exact ⟨intOut_gives true (fun a b _ => a + b) rfl rfl,
      intOut_gives true (fun a b _ => a - b) rfl rfl,
      intOut_gives false (fun a b _ => a * b) rfl rfl,
      intOut_gives false (fun a b _ => a * b / 2 ^ widthOf f) rfl rfl,
      intOut_gives true (fun a b c => a * b + c) rfl rfl,
      intOut_gives false (fun a b _ => min a b) rfl rfl,
      intOut_gives false (fun a b _ => max a b) rfl rfl,
      intOut_gives false (fun a _ _ => (a.natAbs : Int)) rfl rfl⟩
  · have hint (x : Nat) := intOf_eq x 32 f.signed (by decide)
    simp only [← hint]
    exact ⟨imulw_gives f s tk t b, isad_gives f s tk t b, lea_gives f s tk t b⟩

end Sys2Proof.Machine
end

section
/-!
SUPPORT. The results of logic, shifts, bit fields, counts and byte permutation (R153 to R158) bit by bit.
-/
namespace Sys2Proof.Machine

/-! ### Logic and shifts (R153 to R155) -/

/-- a AND NOT b on W bits. -/
theorem ofNat_andn (w a b : Nat) :
    BitVec.ofNat w (a &&& ((2 ^ w - 1) ^^^ b)) = BitVec.ofNat w a &&& ~~~(BitVec.ofNat w b) := by
  apply BitVec.eq_of_getLsbD_eq
  intro i hi
  simp only [BitVec.getLsbD_and, BitVec.getLsbD_not, BitVec.getLsbD_ofNat, Nat.testBit_and, Nat.testBit_xor,
    Nat.testBit_two_pow_sub_one, hi, decide_true, Bool.true_and, Bool.true_xor]

/-- A left shift; one by W or more leaves nothing. -/
theorem ofNat_shl (w a n : Nat) :
    BitVec.ofNat w (if n ≥ w then 0 else a * 2 ^ n % 2 ^ w) = BitVec.ofNat w a <<< n := by
  split
  · rename_i h
    exact (BitVec.shiftLeft_eq_zero h).symm
  · apply BitVec.eq_of_toNat_eq
    simp [Nat.shiftLeft_eq]

/-- A right shift of a W-bit value; one by W or more leaves nothing. -/
theorem ofNat_shr {w a : Nat} (ha : a < 2 ^ w) (n : Nat) :
    BitVec.ofNat w (if n ≥ w then 0 else a / 2 ^ n) = BitVec.ofNat w a >>> n := by
  split
  · rename_i h
    exact (BitVec.ushiftRight_eq_zero h).symm
  · apply BitVec.eq_of_toNat_eq
    have hdiv : a / 2 ^ n < 2 ^ w := Nat.lt_of_le_of_lt (Nat.div_le_self a (2 ^ n)) ha
    rw [BitVec.toNat_ushiftRight, BitVec.toNat_ofNat, BitVec.toNat_ofNat, Nat.shiftRight_eq_div_pow, Nat.mod_eq_of_lt ha,
      Nat.mod_eq_of_lt hdiv]

/-- An arithmetic shift by W − 1 has filled the word with the sign already. -/
theorem sshiftRight_min {w : Nat} (x : BitVec w) (n : Nat) : x.sshiftRight (min n (w - 1)) = x.sshiftRight n := by
  apply BitVec.eq_of_getLsbD_eq
  intro i hi
  simp only [BitVec.getLsbD_sshiftRight, BitVec.msb_eq_getLsbD_last]
  by_cases hn : n ≤ w - 1
  · rw [Nat.min_eq_left hn]
  · rw [Nat.min_eq_right (by omega), if_neg (c := n + i < w) (by omega)]
    split
    · rw [show w - 1 + i = w - 1 by omega]
    · rfl

/-- SHA: the signed value divided, rounding down. -/
theorem ofNat_sha {w : Nat} (hw : 0 < w) (a n : Nat) :
    BitVec.ofNat w (wrapTo (intOf a w true / 2 ^ min n (w - 1)) w) = (BitVec.ofNat w a).sshiftRight n := by
  rw [ofNat_wrapTo, intOf_eq _ _ _ hw, if_pos rfl, ← sshiftRight_min, BitVec.sshiftRight, Int.shiftRight_eq_div_pow]
  push_cast
  rfl

/-- The 64-bit value that B and A form together (R155, R158). -/
theorem toNat_pair {a b : Nat} (ha : a < 2 ^ 32) (hb : b < 2 ^ 32) :
    (BitVec.ofNat 32 b ++ BitVec.ofNat 32 a).toNat = b * 2 ^ 32 + a := by
  rw [BitVec.toNat_append, BitVec.toNat_ofNat, BitVec.toNat_ofNat, Nat.mod_eq_of_lt ha, Nat.mod_eq_of_lt hb,
    ← Nat.shiftLeft_add_eq_or_of_lt ha, Nat.shiftLeft_eq]

/-- SHF: the low word of B:A shifted right. -/
theorem ofNat_shf {a b : Nat} (ha : a < 2 ^ 32) (hb : b < 2 ^ 32) (n : Nat) :
    BitVec.ofNat 32 ((b * 2 ^ 32 + a) / 2 ^ n % 2 ^ 32) = ((BitVec.ofNat 32 b ++ BitVec.ofNat 32 a) >>> n).setWidth 32 := by
  apply BitVec.eq_of_toNat_eq
  rw [BitVec.toNat_setWidth, BitVec.toNat_ushiftRight, toNat_pair ha hb, Nat.shiftRight_eq_div_pow, BitVec.toNat_ofNat, Nat.mod_mod]

/-! ### Bit fields (R156) -/

theorem testBit_bitsOf (x lo n i : Nat) : (bitsOf x lo n).testBit i = (decide (i < n) && x.testBit (lo + i)) := by
  rw [bitsOf, Nat.testBit_mod_two_pow, Nat.testBit_div_two_pow, Nat.add_comm]

/-- The field that B names, from its 32-bit value, ends at the top of the word at the latest. -/
theorem fieldOf_eq (b w : Nat) :
    fieldOf b w = (min ((BitVec.ofNat 32 b).extractLsb' 0 8).toNat w,
      min ((BitVec.ofNat 32 b).extractLsb' 8 8).toNat (w - min ((BitVec.ofNat 32 b).extractLsb' 0 8).toNat w)) := by
  have hpos : ((BitVec.ofNat 32 b).extractLsb' 0 8).toNat = b % 256 := by
    simp only [BitVec.extractLsb'_toNat, BitVec.toNat_ofNat, Nat.shiftRight_eq_div_pow]; omega
  have hlen : ((BitVec.ofNat 32 b).extractLsb' 8 8).toNat = b / 256 % 256 := by
    simp only [BitVec.extractLsb'_toNat, BitVec.toNat_ofNat, Nat.shiftRight_eq_div_pow]; omega
  rw [fieldOf, hpos, hlen]

/-- BFX: the field at the bottom, and above it zeros or the field's top bit. -/
theorem getLsbD_bfx {w pos len : Nat} (hfit : pos + len ≤ w) (a : Nat) (sg : Bool) {i : Nat} (hi : i < w) :
    (BitVec.ofNat w (if len = 0 then 0 else if sg then wrapTo (intOf (bitsOf a pos len) len true) w else bitsOf a pos len)).getLsbD i =
      if i < len then (BitVec.ofNat w a).getLsbD (pos + i)
      else sg && decide (len ≠ 0) && (BitVec.ofNat w a).getLsbD (pos + len - 1) := by
  have hin (j : Nat) (hj : j < len) : (BitVec.ofNat w a).getLsbD (pos + j) = (bitsOf a pos len).testBit j := by
    rw [testBit_bitsOf, BitVec.getLsbD_ofNat]
    simp [hj, show pos + j < w by omega]
  rcases Nat.eq_zero_or_pos len with rfl | hlen
  · simp
  have htop : (BitVec.ofNat w a).getLsbD (pos + len - 1) = (BitVec.ofNat len (bitsOf a pos len)).msb := by
    rw [BitVec.msb_eq_getLsbD_last, show pos + len - 1 = pos + (len - 1) by omega, hin _ (by omega), BitVec.getLsbD_ofNat,
      decide_eq_true (Nat.sub_lt hlen Nat.one_pos), Bool.true_and]
  rw [if_neg (by omega)]
  cases sg with
  | false =>
    rw [if_neg (by decide), BitVec.getLsbD_ofNat]
    split
    · rename_i h; simp [hi, hin i h]
    · rename_i h; simp [testBit_bitsOf, h]
  | true =>
    rw [if_pos rfl, ofNat_wrapTo, intOf_eq _ _ _ hlen, if_pos rfl, ← BitVec.signExtend, BitVec.getLsbD_signExtend, htop]
    split
    · rename_i h; simp only [hi, h, hin i h, BitVec.getLsbD_ofNat, decide_true, Bool.true_and]
    · simp [hi, show len ≠ 0 by omega]

/-- A number with the field of `len` bits at `pos` replaced. -/
theorem testBit_putField (c x pos len i : Nat) :
    (c - bitsOf c pos len * 2 ^ pos + x % 2 ^ len * 2 ^ pos).testBit i =
      if pos ≤ i ∧ i < pos + len then x.testBit (i - pos) else c.testBit i := by
  have hc : c = 2 ^ pos * (2 ^ len * (c / 2 ^ pos / 2 ^ len) + bitsOf c pos len) + c % 2 ^ pos := by
    rw [bitsOf, Nat.div_add_mod, Nat.div_add_mod]
  have hput : c - bitsOf c pos len * 2 ^ pos + x % 2 ^ len * 2 ^ pos =
      2 ^ pos * (2 ^ len * (c / 2 ^ pos / 2 ^ len) + x % 2 ^ len) + c % 2 ^ pos := by
    rw [Nat.mul_add] at hc ⊢
    rw [Nat.mul_comm _ (2 ^ pos), Nat.mul_comm _ (2 ^ pos)]
    omega
  have hlow : c % 2 ^ pos < 2 ^ pos := Nat.mod_lt _ (Nat.two_pow_pos pos)
  have hmid : x % 2 ^ len < 2 ^ len := Nat.mod_lt _ (Nat.two_pow_pos len)
  rw [hput, Nat.testBit_two_pow_mul_add _ hlow, Nat.testBit_two_pow_mul_add _ hmid]
  simp only [Nat.testBit_mod_two_pow, Nat.testBit_div_two_pow]
  rcases Nat.lt_or_ge i pos with h1 | h1
  · simp [h1, show ¬pos ≤ i by omega]
  · rcases Nat.lt_or_ge (i - pos) len with h2 | h2
    · simp [show ¬i < pos by omega, h1, h2, show i < pos + len by omega]
    · simp [show ¬i < pos by omega, show ¬i - pos < len by omega, show ¬i < pos + len by omega,
        show i - pos - len + len + pos = i by omega]

/-! ### Counts and turned bits (R157) -/

theorem popCount_eq (x w : Nat) : popCount x w = ((List.range w).filter (fun i => (BitVec.ofNat w x).getLsbD i)).length := by
  rw [popCount]
  congr 1
  refine List.filter_congr fun i hi => ?_
  rw [BitVec.getLsbD_ofNat, decide_eq_true (List.mem_range.mp hi), Bool.true_and]

/-- CLZ: `n` zeros and, but for an empty word, a one below them. -/
theorem clz_spec {w a n : Nat} (ha : a < 2 ^ w) (hn : n = w - (if a = 0 then 0 else a.log2 + 1)) :
    n ≤ w ∧ (∀ i, w - n ≤ i → i < w → (BitVec.ofNat w a).getLsbD i = false) ∧
      (n < w → (BitVec.ofNat w a).getLsbD (w - 1 - n) = true) := by
  rcases Nat.eq_zero_or_pos a with rfl | hpos
  · rw [if_pos rfl] at hn
    exact ⟨by omega, fun i _ _ => by simp, fun h => by omega⟩
  · have ha0 : a ≠ 0 := by omega
    have hlog : a.log2 < w := (Nat.log2_lt ha0).mpr ha
    rw [if_neg ha0] at hn
    refine ⟨by omega, fun i h1 h2 => ?_, fun h => ?_⟩
    · have hbig : a < 2 ^ i := Nat.lt_of_lt_of_le Nat.lt_log2_self (Nat.pow_le_pow_right (by decide) (by omega))
      rw [BitVec.getLsbD_ofNat, Nat.testBit_lt_two_pow hbig, Bool.and_false]
    · rw [BitVec.getLsbD_ofNat, show w - 1 - n = a.log2 by omega, Nat.testBit_log2 ha0]
      simp [hlog]

theorem bit1_lt_two (x : Bool) : bit1 x < 2 := by cases x <;> decide

/-- The sum that BREV builds from the top down: after `n` bits a multiple of 2^(W−n) whose quotient holds them turned round. -/
theorem brevSum_eq (g : Nat → Bool) {w n : Nat} (hn : n ≤ w) :
    ∃ m, (List.range n).foldl (fun y i => y + bit1 (g i) * 2 ^ (w - 1 - i)) 0 = 2 ^ (w - n) * m ∧
      ∀ j, m.testBit j = (decide (j < n) && g (n - 1 - j)) := by
  induction n with
  | zero => exact ⟨0, by simp⟩
  | succ n ih =>
    obtain ⟨m, hm, hbits⟩ := ih (by omega)
    refine ⟨2 * m + bit1 (g n), ?_, fun j => ?_⟩
    · have hpow : 2 ^ (w - n) = 2 ^ (w - (n + 1)) * 2 := by rw [← Nat.pow_succ]; congr 1; omega
      rw [List.range_succ, List.foldl_append, hm, hpow, List.foldl_cons, List.foldl_nil, Nat.sub_sub, Nat.add_comm 1 n,
        Nat.mul_add, Nat.mul_assoc, Nat.mul_comm (bit1 _)]
    · cases j with
      | zero =>
        rw [Nat.testBit_zero, Nat.mul_add_mod, Nat.sub_zero, Nat.add_sub_cancel, decide_eq_true (Nat.succ_pos n), Bool.true_and]
        cases g n <;> rfl
      | succ j =>
        have hbit := bit1_lt_two (g n)
        have hhalf : (2 * m + bit1 (g n)) / 2 = m := by omega
        rw [Nat.testBit_succ, hhalf, hbits, show n + 1 - 1 - (j + 1) = n - 1 - j by omega]
        simp only [Nat.add_lt_add_iff_right]

/-- BREV: bit i of the result is bit W − 1 − i of the source. -/
theorem getLsbD_brev (a : Nat) {w i : Nat} (hi : i < w) :
    (BitVec.ofNat w ((List.range w).foldl (fun y i => y + bit1 (a.testBit i) * 2 ^ (w - 1 - i)) 0)).getLsbD i =
      (BitVec.ofNat w a).getLsbD (w - 1 - i) := by
  obtain ⟨m, hm, hbits⟩ := brevSum_eq a.testBit (Nat.le_refl w)
  rw [hm, Nat.sub_self, Nat.pow_zero, Nat.one_mul, BitVec.getLsbD_ofNat, BitVec.getLsbD_ofNat, hbits]
  simp [hi, show w - 1 - i < w by omega]

/-! ### Bytes (R158) -/

/-- The sum of `n` bytes, lowest first, bit by bit. -/
theorem byteSum_spec (g : Nat → Nat) (hg : ∀ i, g i < 2 ^ 8) (n : Nat) :
    (List.range n).foldl (fun y i => y + g i * 2 ^ (8 * i)) 0 < 2 ^ (8 * n) ∧
      ∀ i k, i < n → k < 8 → ((List.range n).foldl (fun y i => y + g i * 2 ^ (8 * i)) 0).testBit (8 * i + k) = (g i).testBit k := by
  induction n with
  | zero => exact ⟨Nat.one_pos, fun i k h => by omega⟩
  | succ n ih =>
    obtain ⟨hlt, hbits⟩ := ih
    rw [List.range_succ, List.foldl_append, List.foldl_cons, List.foldl_nil, Nat.add_comm, Nat.mul_comm (g n)]
    refine ⟨?_, fun i k hi hk => ?_⟩
    · have hn := Nat.mul_le_mul_left (2 ^ (8 * n)) (Nat.succ_le_of_lt (hg n))
      rw [Nat.mul_succ] at hn
      rw [Nat.mul_succ, Nat.pow_add]
      omega
    · rw [Nat.testBit_two_pow_mul_add _ hlt]
      split
      · exact hbits i k (by omega) hk
      · rw [show i = n by omega, Nat.add_sub_cancel_left]

/-- Byte i of a word built from four bytes. -/
theorem extract_fourBytes (g : Nat → Nat) (hg : ∀ i, g i < 2 ^ 8) {i : Nat} (hi : i < 4) :
    (BitVec.ofNat 32 ((List.range 4).foldl (fun y i => y + g i * 2 ^ (8 * i)) 0)).extractLsb' (8 * i) 8 = BitVec.ofNat 8 (g i) := by
  apply BitVec.eq_of_getLsbD_eq
  intro k hk
  rw [BitVec.getLsbD_extractLsb', BitVec.getLsbD_ofNat, BitVec.getLsbD_ofNat, (byteSum_spec g hg 4).2 i k hi hk]
  simp [hk, show 8 * i + k < 32 by omega]

theorem permByte_lt (x sel : Nat) : permByte x sel < 2 ^ 8 := by
  have hbyte : bitsOf x (8 * (sel % 8)) 8 < 2 ^ 8 := Nat.mod_lt _ (by decide)
  rw [permByte]
  split
  · show (if _ then 0xFF else 0x00) < 2 ^ 8
    split <;> decide
  · exact hbyte

/-- The byte that a selector takes from B:A, or its sign alone. -/
theorem ofNat_permByte {e : BitVec 64} {x : Nat} (he : e.toNat = x) (sel : Nat) :
    BitVec.ofNat 8 (permByte x sel) =
      if sel < 8 then e.extractLsb' (8 * (sel % 8)) 8
      else if (e.extractLsb' (8 * (sel % 8)) 8).getLsbD 7 then 0xFF#8 else 0x00#8 := by
  have hbyte : bitsOf x (8 * (sel % 8)) 8 = (e.extractLsb' (8 * (sel % 8)) 8).toNat := by
    rw [BitVec.extractLsb'_toNat, he, Nat.shiftRight_eq_div_pow, bitsOf]
  have hsign (y : BitVec 8) : y.getLsbD 7 = decide (128 ≤ y.toNat) := by
    rw [← BitVec.msb_eq_getLsbD_last y, BitVec.msb_eq_decide]
  rw [permByte, hbyte, hsign]
  generalize e.extractLsb' (8 * (sel % 8)) 8 = y
  rcases Nat.lt_or_ge sel 8 with h | h
  · simp [h, show ¬sel ≥ 8 by omega]
  · simp only [h, show ¬sel < 8 by omega, if_true, if_false, decide_eq_true_eq, ge_iff_le]
    split <;> rfl

end Sys2Proof.Machine
end

section
/-!
Logic, shifts, bit fields, counts and byte permutation (R153 to R158): each instruction delivers the value of its rule.
-/
namespace Sys2Proof.Machine

section
variable (f : Fields) (s : State) (tk : Nat) (t : Thread) (b : Block)

theorem andn_gives : GivesRegs (.andn f) .andn f s tk t b 0 f.wregs (fun x => BitVec.ofNat (widthOf f) x =
    BitVec.ofNat (widthOf f) (opndA .andn t b f) &&& ~~~(BitVec.ofNat (widthOf f) (opndB .andn t b f))) :=
  GivesRegs.of_outVal (g := outAndn f) rfl rfl rfl (ofNat_andn _ _ _)

theorem shl_gives : GivesRegs (.shl f) .shl f s tk t b 0 f.wregs (fun x => BitVec.ofNat (widthOf f) x =
    BitVec.ofNat (widthOf f) (opndA .shl t b f) <<< (BitVec.ofNat 32 (opndB .shl t b f)).toNat) := by
  rw [BitVec.toNat_ofNat, Nat.mod_eq_of_lt (opndB_lt_word rfl t)]
  exact GivesRegs.of_outVal (g := outShl f) rfl rfl rfl (ofNat_shl _ _ _)

theorem shr_gives : GivesRegs (.shr f) .shr f s tk t b 0 f.wregs (fun x => BitVec.ofNat (widthOf f) x =
    BitVec.ofNat (widthOf f) (opndA .shr t b f) >>> (BitVec.ofNat 32 (opndB .shr t b f)).toNat) := by
  rw [BitVec.toNat_ofNat, Nat.mod_eq_of_lt (opndB_lt_word rfl t)]
  exact GivesRegs.of_outVal (g := outShr f) rfl rfl rfl (ofNat_shr (opndA_lt_width rfl t) _)

theorem sha_gives : GivesRegs (.sha f) .sha f s tk t b 0 f.wregs (fun x => BitVec.ofNat (widthOf f) x =
    (BitVec.ofNat (widthOf f) (opndA .sha t b f)).sshiftRight (BitVec.ofNat 32 (opndB .sha t b f)).toNat) := by
  rw [BitVec.toNat_ofNat, Nat.mod_eq_of_lt (opndB_lt_word rfl t)]
  exact GivesRegs.of_outVal (g := outSha f) rfl rfl rfl (ofNat_sha (widthOf_pos f) _ _)

theorem shf_gives : GivesRegs (.shf f) .shf f s tk t b 0 1 (fun x => BitVec.ofNat 32 x =
    ((BitVec.ofNat 32 (opndB .shf t b f) ++ BitVec.ofNat 32 (opndA .shf t b f)) >>> (opndC .shf t b f % 64)).setWidth 32) :=
  GivesRegs.of_outVal (g := outShf f) rfl rfl rfl (ofNat_shf (opndA_lt_word rfl t) (opndB_lt_word rfl t) _)

/-- The field of BFX and BFI ends at the top of the word at the latest (R156). -/
theorem fieldOf_fits (x w : Nat) : (fieldOf x w).1 + (fieldOf x w).2 ≤ w := by
  simp only [fieldOf]
  omega

theorem bfx_gives {pos len : Nat} (h : fieldOf (opndB .bfx t b f) (widthOf f) = (pos, len)) :
    GivesRegs (.bfx f) .bfx f s tk t b 0 f.wregs (fun x => ∀ i, i < widthOf f → (BitVec.ofNat (widthOf f) x).getLsbD i =
      if i < len then (BitVec.ofNat (widthOf f) (opndA .bfx t b f)).getLsbD (pos + i)
      else f.signed && decide (len ≠ 0) && (BitVec.ofNat (widthOf f) (opndA .bfx t b f)).getLsbD (pos + len - 1)) := by
  have hfit := fieldOf_fits (opndB .bfx t b f) (widthOf f)
  have hout : outBfx f (readOpnds .bfx t b f) = outVal (if len = 0 then 0
      else if f.signed then wrapTo (intOf (bitsOf (opndA .bfx t b f) pos len) len true) (widthOf f)
      else bitsOf (opndA .bfx t b f) pos len) := by
    simp only [outBfx, readOpnds, h]
  rw [h] at hfit
  exact GivesRegs.of_outVal (g := outBfx f) rfl rfl hout (fun i hi => getLsbD_bfx hfit _ _ hi)

theorem bfi_gives {pos len : Nat} (h : fieldOf (opndB .bfi t b f) (widthOf f) = (pos, len)) :
    GivesRegs (.bfi f) .bfi f s tk t b 0 f.wregs (fun x => ∀ i, i < widthOf f → (BitVec.ofNat (widthOf f) x).getLsbD i =
      if pos ≤ i ∧ i < pos + len then (BitVec.ofNat (widthOf f) (opndA .bfi t b f)).getLsbD (i - pos)
      else (BitVec.ofNat (widthOf f) (opndC .bfi t b f)).getLsbD i) := by
  have hout : outBfi f (readOpnds .bfi t b f) = outVal (opndC .bfi t b f - bitsOf (opndC .bfi t b f) pos len * 2 ^ pos +
      opndA .bfi t b f % 2 ^ len * 2 ^ pos) := by
    simp only [outBfi, readOpnds, h]
  refine GivesRegs.of_outVal (g := outBfi f) rfl rfl hout (fun i hi => ?_)
  simp only [BitVec.getLsbD_ofNat, testBit_putField, hi, show i - pos < widthOf f by omega, decide_true, Bool.true_and]

theorem popc_gives : GivesRegs (.popc f) .popc f s tk t b 0 1 (fun x => x = ((List.range (widthOf f)).filter
    (fun i => (BitVec.ofNat (widthOf f) (opndA .popc t b f)).getLsbD i)).length) :=
  GivesRegs.of_outVal (g := outPopc f) rfl rfl rfl (popCount_eq _ _)

theorem clz_gives : GivesRegs (.clz f) .clz f s tk t b 0 1 (fun x => x ≤ widthOf f ∧
    (∀ i, widthOf f - x ≤ i → i < widthOf f → (BitVec.ofNat (widthOf f) (opndA .clz t b f)).getLsbD i = false) ∧
    (x < widthOf f → (BitVec.ofNat (widthOf f) (opndA .clz t b f)).getLsbD (widthOf f - 1 - x) = true)) :=
  GivesRegs.of_outVal (g := outClz f) rfl rfl rfl (clz_spec (opndA_lt_width rfl t) rfl)

theorem brev_gives : GivesRegs (.brev f) .brev f s tk t b 0 f.wregs (fun x => ∀ i, i < widthOf f →
    (BitVec.ofNat (widthOf f) x).getLsbD i = (BitVec.ofNat (widthOf f) (opndA .brev t b f)).getLsbD (widthOf f - 1 - i)) :=
  GivesRegs.of_outVal (g := outBrev f) rfl rfl rfl (fun _ hi => getLsbD_brev _ hi)

/-- The selector of a result byte, from the 32-bit value of source C (R158). -/
theorem permSel_eq (c : Nat) {i : Nat} (hi : i < 4) : ((BitVec.ofNat 32 c).extractLsb' (4 * i) 4).toNat = bitsOf c (4 * i) 4 := by
  apply Nat.eq_of_testBit_eq
  intro k
  rw [testBit_bitsOf, BitVec.testBit_toNat, BitVec.getLsbD_extractLsb', BitVec.getLsbD_ofNat]
  by_cases hk : k < 4
  · simp [show 4 * i + k < 32 by omega]
  · simp [hk]

theorem perm_gives : GivesRegs (.perm f) .perm f s tk t b 0 1 (fun x => ∀ i, i < 4 →
    (BitVec.ofNat 32 x).extractLsb' (8 * i) 8 =
      let e := BitVec.ofNat 32 (opndB .perm t b f) ++ BitVec.ofNat 32 (opndA .perm t b f)
      let sel := ((BitVec.ofNat 32 (opndC .perm t b f)).extractLsb' (4 * i) 4).toNat
      let byte := e.extractLsb' (8 * (sel % 8)) 8
      if sel < 8 then byte else if byte.getLsbD 7 then 0xFF#8 else 0x00#8) := by
  refine GivesRegs.of_outVal (g := outPerm f) rfl rfl rfl (fun i hi => ?_)
  have hpair := toNat_pair (opndA_lt_word (op := .perm) (b := b) (f := f) rfl t) (opndB_lt_word (op := .perm) (b := b) (f := f) rfl t)
  dsimp only
  rw [permSel_eq _ hi, ← ofNat_permByte hpair]
  exact extract_fourBytes (fun i => permByte _ (bitsOf (opndC .perm t b f) (4 * i) 4)) (fun _ => permByte_lt _ _) hi

end

/-- Settles O11: each result is read bit by bit, or byte by byte, off the number that its instruction delivers. -/
theorem logicShiftsAndBitFields : Obligations.LogicShiftsAndBitFields := by
  refine ⟨fun f s tk t b => ?_, fun f s tk t b => ?_⟩
  · exact ⟨GivesRegs.of_outVal (g := outAnd f) rfl rfl rfl BitVec.ofNat_and,
      GivesRegs.of_outVal (g := outOr f) rfl rfl rfl BitVec.ofNat_or,
      GivesRegs.of_outVal (g := outXor f) rfl rfl rfl BitVec.ofNat_xor,
      andn_gives f s tk t b, shl_gives f s tk t b, shr_gives f s tk t b, sha_gives f s tk t b, shf_gives f s tk t b⟩
  · exact ⟨bfx_gives f s tk t b (fieldOf_eq _ _), bfi_gives f s tk t b (fieldOf_eq _ _), popc_gives f s tk t b, clz_gives f s tk t b,
      brev_gives f s tk t b, perm_gives f s tk t b⟩

end Sys2Proof.Machine
end

section
/-!
Moves and constants (R160 to R165): MOV, MOVSR, LDKX and NOP.
-/
namespace Sys2Proof.Machine

section
variable {f : Fields} {s : State} {tk : Nat} {t : Thread} {b : Block}

/-! ### MOV (R160) -/

theorem mov_gives_regs (h : f.df = 0) : GivesRegs (.mov f) .mov f s tk t b 0 f.wregs (fun x =>
    BitVec.ofNat (widthOf f) x = BitVec.ofNat (widthOf f) (opndA .mov t b f)) := by
  have hd : (form .mov b.limits f).d = .reg f.wregs := by simp only [form, form000, h, if_true]
  have hout : outMov f (readOpnds .mov t b f) = outVal (opndA .mov t b f) := by simp only [outMov, h, readOpnds]
  exact GivesRegs.of_outVal rfl hd hout rfl

theorem mov_gives_bank (h : f.df = 1) (he : Executes .mov f s tk t b) : ∃ s' u, exec (.mov f) s = .next s' ∧ Computed s s' tk t u b 0 ∧
    u.v = t.v ∧ u.p = t.p ∧ ∀ j, u.bank j = if j = f.d.toNat then BitVec.ofNat 32 (opndA .mov t b f) else t.bank j := by
  have hd : (form .mov b.limits f).d = .pred := by simp [form, form000, h]
  have hout : outMov f (readOpnds .mov t b f) = { bank := some (opndA .mov t b f) } := by simp only [outMov, h, readOpnds]
  have hbank := execCompute_bank (i := .mov f) he hout rfl
  rwa [Nat.mod_eq_of_lt (he.predDest_lt (by decide) hd)] at hbank

theorem mov_gives_pred (h : f.df = 2) : GivesPred (.mov f) .mov f s tk t b 0 ((opndA .mov t b f).testBit 0) := by
  have hout : outMov f (readOpnds .mov t b f) = { pred := some ((opndA .mov t b f).testBit 0), flags := 0 } := by
    simp only [outMov, h, readOpnds, outPred, Nat.testBit_zero]
    rfl
  exact execCompute_pred 4 _ hout _ rfl

/-! ### LDKX (R164) -/

/-- The launch constant at a computed index: 0 from 64 on. -/
def Block.constAt (b : Block) (j : Nat) : Word := if j < 64 then b.k j else 0

theorem Block.constAt_toNat (b : Block) (j : Nat) : (b.constAt j).toNat = if j < 64 then (b.k j).toNat else 0 := by
  unfold Block.constAt; split <;> rfl

/-- The number that LDKX delivers: one constant, or two, low word first. -/
def ldkxValue (f : Fields) (b : Block) (i : Nat) : Nat :=
  if f.wide then (b.constAt i).toNat + 2 ^ 32 * (b.constAt (i + 1)).toNat else (b.constAt i).toNat

theorem ldkxValue_low (f : Fields) (b : Block) (i : Nat) : BitVec.ofNat 32 (ldkxValue f b i) = b.constAt i := by
  apply BitVec.eq_of_toNat_eq
  have hlt := (b.constAt i).isLt
  unfold ldkxValue
  split <;> rw [BitVec.toNat_ofNat] <;> omega

theorem ldkxValue_wide (hw : f.wide = true) (b : Block) (i : Nat) :
    BitVec.ofNat 64 (ldkxValue f b i) = b.constAt (i + 1) ++ b.constAt i := by
  apply BitVec.eq_of_toNat_eq
  have hlo := (b.constAt i).isLt
  have hhi := (b.constAt (i + 1)).isLt
  rw [ldkxValue, if_pos hw, BitVec.toNat_ofNat, BitVec.toNat_append, ← Nat.shiftLeft_add_eq_or_of_lt hlo, Nat.shiftLeft_eq]
  omega

theorem ldkxBody_eq : ldkxBody f tk t b s =
    computeBody .ldkx 4 f (fun _ => outVal (ldkxValue f b ((opndA .ldkx t b f + f.x.toNat) % 2 ^ 32))) tk t b s := by
  simp only [ldkxValue, Block.constAt_toNat]
  rfl

theorem ldkx_gives : GivesRegs (.ldkx f) .ldkx f s tk t b 0 f.wregs (fun x =>
    BitVec.ofNat 32 x = b.constAt ((opndA .ldkx t b f + f.x.toNat) % 2 ^ 32) ∧
      (f.wide = true → BitVec.ofNat 64 x =
        b.constAt ((opndA .ldkx t b f + f.x.toNat) % 2 ^ 32 + 1) ++ b.constAt ((opndA .ldkx t b f + f.x.toNat) % 2 ^ 32))) :=
  GivesRegs.of_body (body := ldkxBody f) rfl rfl ldkxBody_eq ⟨ldkxValue_low _ _ _, fun hw => ldkxValue_wide hw _ _⟩

/-! ### MOVSR (R161 to R163) -/

/-- How many registers a special register takes: the three of 64 bits take a pair (R161). -/
theorem movsr_dest (lim : Limits) (f : Fields) : (form .movsr lim f).d =
    .reg (if f.a.idx.toNat = 3 ∨ f.a.idx.toNat = 12 ∨ f.a.idx.toNat = 14 then 2 else 1) := by
  simp only [form, form000, ← BitVec.toNat_inj]
  rfl

/-- A special register other than %clk and %pst is delivered at once. -/
theorem movsr_gives {k n : Nat} (hk : f.a.idx.toNat = k) (hclk : k ≠ 12) (hpst : k ≠ 13)
    (hn : (if k = 3 ∨ k = 12 ∨ k = 14 then 2 else 1) = n) :
    GivesRegs (.movsr f) .movsr f s tk t b 0 n (fun y => y = specialReg s tk t b k) := by
  refine GivesRegs.of_body (body := movsrBody f) rfl (by rw [movsr_dest, hk, hn]) ?_ rfl
  simp only [movsrBody, hk, hclk, hpst, or_self, if_false]
  rfl

/-- %clk and %pst come through a window (R31). -/
theorem movsr_opens {k n : Nat} (hk : f.a.idx.toNat = k) (hwin : k = 12 ∨ k = 13)
    (hn : (if k = 3 ∨ k = 12 ∨ k = 14 then 2 else 1) = n) :
    OpensKnown (.movsr f) .movsr f s tk t b n (specialReg s tk t b k) 0 := by
  refine OpensKnown.of_body (body := movsrBody f) (due := s.due (tkCore tk) 8) rfl (by rw [movsr_dest, hk, hn]) ?_
  simp only [movsrBody, hk, hwin, if_true]

/-- The special registers of 32 bits that are read at once (Table 6.5). -/
def specials (tk : Nat) (b : Block) : List (Nat × Nat) :=
  [(0, tkThr tk), (1, b.desc.ntid), (2, b.blk), (4, b.qrank), (5, b.desc.quilt), (6, tkThr tk % 32), (7, tkThr tk / 32 % 6),
    (8, tkThr tk / 192 + b.slotb), (9, b.core % 4), (10, b.core / 4), (11, b.asid)]

theorem specials_read (s : State) (tk : Nat) (t : Thread) (b : Block) : ∀ c ∈ specials tk b,
    c.2 = specialReg s tk t b c.1 ∧ c.1 ≠ 12 ∧ c.1 ≠ 13 ∧ ¬(c.1 = 3 ∨ c.1 = 12 ∨ c.1 = 14) := by
  simp [specials, specialReg, laneOfThr, sliceOfThr]

theorem movsr_gives_special {n x : Nat} (h : (n, x) ∈ specials tk b) (hn : f.a.idx.toNat = n) :
    GivesRegs (.movsr f) .movsr f s tk t b 0 1 (fun y => y = x) := by
  obtain ⟨hx, hclk, hpst, hpair⟩ := specials_read s tk t b (n, x) h
  dsimp only at hx hclk hpst hpair
  rw [hx]
  exact movsr_gives hn hclk hpst (if_neg hpair)

/-! ### NOP (R165) -/

/-- The fields that NOP executes with, whatever its word holds. -/
def nopFields : Fields := ⟨0, false, 0, 0, .none, .pred, 0, ⟨.v, 0⟩, ⟨.v, 0⟩, 0, 0⟩

theorem executes_nop (h : Alone s tk t b) : Executes .nop nopFields s tk t b := ⟨h, rfl, rfl⟩

theorem nop_retires (f : Fields) (h : Alone s tk t b) : exec (.nop f) s = .next (s.setThread tk t.retire) :=
  congrArg Host.Outcome.next (issueAll_alone (executes_nop h) _)

end

/-- Settles O12: MOV delivers as DF says, LDKX and MOVSR deliver what they have read or open a window for it, and NOP retires. -/
theorem movesAndConstants : Obligations.MovesAndConstants := by
  intro f s tk t b
  refine ⟨mov_gives_regs, fun h he => ?_, mov_gives_pred, ldkx_gives, fun n x hx => movsr_gives_special (List.mem_filter.mp hx).1,
    fun h => movsr_gives h (by decide) (by decide) rfl, fun h => movsr_gives h (by decide) (by decide) rfl,
    fun h => movsr_opens h (by decide) rfl, fun h => movsr_opens h (by decide) rfl, nop_retires f⟩
  obtain ⟨s', u, hrun, hc, hv, hp, hbank⟩ := mov_gives_bank h he
  exact ⟨s', u, hrun, hc, hv, hp, fun j _ => hbank j⟩

end Sys2Proof.Machine
end
